-- ==== Sys2Proof/Word.lean ====
section
/-!
DEFINITION. The machine's data sizes: 8-bit bytes, 16-bit halfwords and 32-bit words (10_state.md R49), and the
register numbers an instruction names (30_encoding.md R183).
-/

namespace Sys2Proof

/-- A byte, 8 bits (R49). -/
abbrev Byte := BitVec 8

/-- A halfword, 16 bits (R49); also one unit of the instruction stream (R181). -/
abbrev Halfword := BitVec 16

/-- A word, 32 bits (R49): the width of a register, of an address and of a memory-mapped register. -/
abbrev Word := BitVec 32

/-- The number of a core register R0 to R15 (R7), what a 4-bit register field holds. -/
abbrev Reg := Fin 16

/-- The number of a low register R0 to R7 (R31), what a 3-bit register field holds. -/
abbrev LowReg := Fin 8

/-- A low register seen as a core register (R31). -/
def LowReg.toReg (r : LowReg) : Reg := r.castLE (by decide)

end Sys2Proof
end

