-- ==== Sys2Proof/Syntax.lean ====
section
/-!
DEFINITION. The instructions as syntax: one constructor for every row of spec/opcode_table.json, in the table's order,
with the operand fields of that row (30_encoding.md R183 to R200).
-/

namespace Sys2Proof

/-- The condition of B<cond> (00_scope.md R15). AL has no encoding in that format, so it is no value here. -/
inductive Cond where
  | eq | ne | cs | cc | mi | pl | vs | vc | hi | ls | ge | lt | gt | le
  deriving DecidableEq, Repr

/-- The special registers MRS and MSR can name (30_encoding.md R198, 44_misc.md R364). -/
inductive SpecReg where
  | apsr | iapsr | eapsr | psr | ipsr | epsr | iepsr | msp | psp | primask | control
  deriving DecidableEq, Repr

/-- One constructor per row of the opcode table. Operands are the row's fields: register numbers, immediates as the
bits of their field, and for BL the 24 bits S:I1:I2:imm10:imm11 of the halfword offset (R197). -/
inductive Instr where
  -- R186: shift, add, subtract, move, compare
  | movsReg (rd rm : LowReg)
  | lslsImm (rd rm : LowReg) (imm5 : BitVec 5)
  | lsrsImm (rd rm : LowReg) (imm5 : BitVec 5)
  | asrsImm (rd rm : LowReg) (imm5 : BitVec 5)
  | addsReg (rd rn rm : LowReg)
  | subsReg (rd rn rm : LowReg)
  | addsImm3 (rd rn : LowReg) (imm3 : BitVec 3)
  | subsImm3 (rd rn : LowReg) (imm3 : BitVec 3)
  | movsImm (rd : LowReg) (imm8 : BitVec 8)
  | cmpImm (rn : LowReg) (imm8 : BitVec 8)
  | addsImm8 (rdn : LowReg) (imm8 : BitVec 8)
  | subsImm8 (rdn : LowReg) (imm8 : BitVec 8)
  -- R187: data processing, register
  | ands (rdn rm : LowReg)
  | eors (rdn rm : LowReg)
  | lslsReg (rdn rs : LowReg)
  | lsrsReg (rdn rs : LowReg)
  | asrsReg (rdn rs : LowReg)
  | adcs (rdn rm : LowReg)
  | sbcs (rdn rm : LowReg)
  | rors (rdn rs : LowReg)
  | tst (rn rm : LowReg)
  | rsbs (rd rn : LowReg)
  | cmpLow (rn rm : LowReg)
  | cmn (rn rm : LowReg)
  | orrs (rdn rm : LowReg)
  | muls (rdm rn : LowReg)
  | bics (rdn rm : LowReg)
  | mvns (rd rm : LowReg)
  -- R188: special data instructions and branch-and-exchange
  | addHigh (rdn rm : Reg)
  | cmpHigh (rn rm : Reg)
  | movHigh (rd rm : Reg)
  | bx (rm : Reg)
  | blx (rm : Reg)
  -- R189: load and store single data item
  | ldrLit (rt : LowReg) (imm8 : BitVec 8)
  | strReg (rt rn rm : LowReg)
  | strhReg (rt rn rm : LowReg)
  | strbReg (rt rn rm : LowReg)
  | ldrsbReg (rt rn rm : LowReg)
  | ldrReg (rt rn rm : LowReg)
  | ldrhReg (rt rn rm : LowReg)
  | ldrbReg (rt rn rm : LowReg)
  | ldrshReg (rt rn rm : LowReg)
  | strImm (rt rn : LowReg) (imm5 : BitVec 5)
  | ldrImm (rt rn : LowReg) (imm5 : BitVec 5)
  | strbImm (rt rn : LowReg) (imm5 : BitVec 5)
  | ldrbImm (rt rn : LowReg) (imm5 : BitVec 5)
  | strhImm (rt rn : LowReg) (imm5 : BitVec 5)
  | ldrhImm (rt rn : LowReg) (imm5 : BitVec 5)
  | strSp (rt : LowReg) (imm8 : BitVec 8)
  | ldrSp (rt : LowReg) (imm8 : BitVec 8)
  -- R190, R191: addresses, stack pointer, extension, PUSH, CPS, byte reversal, POP, BKPT
  | adr (rd : LowReg) (imm8 : BitVec 8)
  | addRdSp (rd : LowReg) (imm8 : BitVec 8)
  | addSp (imm7 : BitVec 7)
  | subSp (imm7 : BitVec 7)
  | sxth (rd rm : LowReg)
  | sxtb (rd rm : LowReg)
  | uxth (rd rm : LowReg)
  | uxtb (rd rm : LowReg)
  | push (lr : Bool) (list : BitVec 8)
  | cpsie
  | cpsid
  | rev (rd rm : LowReg)
  | rev16 (rd rm : LowReg)
  | revsh (rd rm : LowReg)
  | pop (pc : Bool) (list : BitVec 8)
  | bkpt (imm8 : BitVec 8)
  -- R192: hints
  | nop
  | yield
  | wfe
  | wfi
  | sev
  -- R193: multiple load and store
  | stm (rn : LowReg) (list : BitVec 8)
  | ldm (rn : LowReg) (list : BitVec 8)
  -- R194, R195: UDF, SVC, branches
  | udf (imm8 : BitVec 8)
  | svc (imm8 : BitVec 8)
  | bCond (cond : Cond) (imm8 : BitVec 8)
  | b (imm11 : BitVec 11)
  -- R196: 32-bit instructions
  | bl (off24 : BitVec 24)
  | msr (spec : SpecReg) (rn : Reg)
  | mrs (rd : Reg) (spec : SpecReg)
  | dsb (option : BitVec 4)
  | dmb (option : BitVec 4)
  | isb (option : BitVec 4)
  | udfW (imm16 : BitVec 16)
  deriving DecidableEq, Repr

end Sys2Proof
end

