-- ==== Sys2Proof/Machine/State.lean ====
section
/-!
DEFINITION. The machine's state as plain data, the reasons a step can stop, and the state after reset. INVENTORY.md
lists every piece of state with the rule of spec/ that names it and its reset value.
-/

namespace Sys2Proof.Machine

/-! ## Why a step stops -/

/-- A stop where a running program does at run time what the spec forbids without giving a result. Every one is safe:
the hardware goes on in some way a claim may not use. -/
inductive Fault where
  /-- A store wrote 1 to AIRCR.VECTCLRACTIVE with the right key: "otherwise the behaviour is unpredictable"
  (10_state.md R69, U3). Raised by any store or stacking write to AIRCR. Safe. -/
  | vectClrActive
  /-- BX or POP loaded an EXC_RETURN value in Handler mode whose bits [3:0] are none of 0001, 1001, 1101
  (60_exceptions.md R440, R441, D19, U17). Safe. -/
  | reservedExcReturn
  /-- An exception return inconsistent with the active exceptions or with the stacked IPSR (R440, D19, U17). Safe. -/
  | inconsistentReturn
  deriving DecidableEq, Repr

/-- A stop where the model gives no meaning. -/
inductive Refusal where
  /-- exec's arm for an instruction that has no meaning yet. No arm of exec answers with it now. Safe. -/
  | notModelled (mnemonic : String)
  /-- An encoding or operand combination the spec calls UNPREDICTABLE (30_encoding.md R207). Raised by the fetch, and
  by a meaning given an instruction that is not well formed. Safe. -/
  | unpredictable
  /-- An unallocated hint encoding (R208, D20, U11). Raised by the fetch. Safe. -/
  | unallocatedHint
  /-- An access to a window that the memory map gives to a device of the microcontroller, whose behaviour is in none
  of the sources (00_scope.md R4, 20_memory.md R142). Raised by a load, store, stacking or fetch there. Safe. -/
  | deviceAccess
  deriving DecidableEq, Repr

/-- The causes of a HardFault (60_exceptions.md R428, numbered as there). The hardware records no cause (R10). -/
inductive FaultCause where
  | svcPriority      -- [1] SVC at a priority equal to or higher than SVCall
  | breakpoint       -- [2] BKPT without a debugger
  | busErrorData     -- [3] bus error on a load or store
  | executeNever     -- [4] execution from an XN address
  | busErrorFetch    -- [5] bus error on an instruction fetch
  | busErrorVector   -- [6] bus error on a vector fetch
  | undefined        -- [7] undefined instruction
  | notThumb         -- [8] execution with EPSR.T = 0
  | unaligned        -- [9] unaligned load or store
  deriving DecidableEq, Repr

/-- What one memory access, or anything that can raise HardFault, gives: a value, a HardFault to be taken, or a stop. -/
inductive Access (α : Type) where
  | ok (a : α)
  | hardFault (cause : FaultCause)
  | fault (r : Fault)
  | refused (r : Refusal)
  deriving Repr

/-! ## Parts of the state -/

/-- The condition flags of the APSR (10_state.md R40). -/
structure Apsr where
  n : Bool
  z : Bool
  c : Bool
  v : Bool
  deriving DecidableEq, Repr

/-- The NVIC and the exception state (R55 to R61, R90, R94). `pending` and `active` have one bit per exception
number 0 to 47; bit `16 + n` of `pending` is PEND[n]. -/
structure Nvic where
  enable : BitVec 32
  pending : BitVec 48
  active : BitVec 48
  ipr : Vector Word 8
  line : BitVec 32
  lastLine : BitVec 32
  deriving DecidableEq, Repr

/-- The System Control Block (R65 to R73). `resetRequest` is the model's own: a SYSRESETREQ write has completed and
the next step is `Reset()` (R503). -/
structure Scb where
  sevOnPend : Bool
  sleepDeep : Bool
  sleepOnExit : Bool
  ccr : Word
  shpr2 : Word
  shpr3 : Word
  resetRequest : Bool
  deriving DecidableEq, Repr

/-- The system timer (R80 to R83). -/
structure SysTick where
  enable : Bool
  tickInt : Bool
  clkSource : Bool
  countFlag : Bool
  reload : BitVec 24
  current : BitVec 24
  deriving DecidableEq, Repr

/-- What put the processor to sleep: WFI or sleep-on-exit (R480), or WFE (R482). -/
inductive SleepCause where
  | interrupt
  | event
  deriving DecidableEq, Repr

/-- Whether the processor sleeps (R92); `deep` is SCR.SLEEPDEEP at the moment of entry. -/
inductive Sleep where
  | awake
  | asleep (cause : SleepCause) (deep : Bool)
  deriving DecidableEq, Repr

/-- What stands behind a window of the memory map (20_memory.md R138, R142). -/
inductive RegionKind where
  | memory
  | device
  deriving DecidableEq, Repr

/-- The kind of an access in the memory map's predicate `mapped(a, n, kind)` (R138). -/
inductive AccessKind where
  | read
  | write
  | fetch
  deriving DecidableEq, Repr

/-- One window of the memory map `MemMap` (R138, D6): its bytes are `base` to `base + size - 1`. -/
structure Region where
  base : Nat
  size : Nat
  kind : RegionKind
  readable : Bool
  writable : Bool
  executable : Bool
  deriving DecidableEq, Repr

/-- Memory: the bytes that differ from `Memory.unlisted`, by strictly rising address. -/
abbrev Memory := List Host.Cell

/-- An external reset (60_exceptions.md R404, 70_reset_and_hazards.md R500): none, one between two instructions, or one
that stops the instruction or exception entry in progress at some point inside it. -/
inductive ExternalReset where
  | absent
  | betweenInstructions
  | insideInstruction
  deriving DecidableEq, Repr

/-- What the outside world does before and at one machine step (92_eei_decisions.md, the table of parameters). -/
structure HostInput where
  /-- The 32 interrupt lines at this step's sample (D26, R460). -/
  lines : BitVec 32
  /-- SysTick ticks of the processor clock since the last step (D16). -/
  cpuTicks : Nat
  /-- SysTick ticks of the external reference clock since the last step (D16, R472). -/
  refTicks : Nat
  /-- Whether a takeable asynchronous exception is taken at this boundary (D18). -/
  takeException : Bool
  /-- A spurious wake-up (D27, R481). -/
  wake : Bool
  /-- An external reset (R404, R500). -/
  reset : ExternalReset
  deriving DecidableEq, Repr

/-- The state of the machine. Every field is plain data. -/
structure State where
  /-- R0 to R12 (R30). -/
  regs : Vector Word 13
  /-- The main stack pointer (R32). -/
  msp : Word
  /-- The process stack pointer (R32). -/
  psp : Word
  /-- The link register R14 (R36). -/
  lr : Word
  /-- The program counter: the address of the instruction to execute (R37). -/
  pc : Word
  /-- The condition flags (R40). -/
  apsr : Apsr
  /-- The exception number (R41); the processor is in Handler mode exactly when it is not 0. -/
  ipsr : BitVec 6
  /-- EPSR.T (R42). -/
  thumb : Bool
  /-- PRIMASK.PM (R45). -/
  primask : Bool
  /-- CONTROL bit [1] (R46). -/
  spsel : Bool
  nvic : Nvic
  scb : Scb
  systick : SysTick
  /-- The event register (R91). -/
  event : Bool
  /-- The sleep state (R92). -/
  sleep : Sleep
  /-- The lockup state (R93). -/
  lockup : Bool
  /-- The contents of memory (R50). -/
  mem : Memory
  /-- The memory map, a parameter that no instruction changes (D6). -/
  memMap : List Region
  /-- The host's inputs for the coming steps, the next step's first; when none is left the lines keep their level,
  no tick comes and a takeable exception is taken. -/
  inputs : List HostInput
  /-- The model's own: the addresses of the memory bytes that the latest step has stored to, which a reset inside that
  step leaves without a known value (70_reset_and_hazards.md R502). -/
  stored : List Word
  /-- The model's own: the number of the next draw of an open value (Config.freeWord, freeBit, wfeReading). -/
  freeIndex : Nat
  deriving DecidableEq, Repr

/-! ## The state after reset -/

/-- The memory map a run starts with. DESIGN CHOICE (notes/assumptions/6.md): the spec leaves the map open (D6); the
three regions that can hold programs (R152) are memory, the Peripheral region is a device window and nothing answers
elsewhere. The Private Peripheral Bus is inside the processor and needs no entry. -/
def defaultMemMap : List Region := [
  { base := 0x00000000, size := 0x40000000, kind := .memory, readable := true, writable := true, executable := true },
  { base := 0x40000000, size := 0x20000000, kind := .device, readable := true, writable := true, executable := false },
  { base := 0x60000000, size := 0x40000000, kind := .memory, readable := true, writable := true, executable := true }]

/-- The machine right after reset (10_state.md R110, 70_reset_and_hazards.md R500) with nothing listed in memory, so
that the words at addresses 0 and 4 are 0: MSP = 0, pc = 0 and EPSR.T = 0. The registers the spec calls unknown hold
the values notes/assumptions/5.md names (DESIGN CHOICE): R0 to R12, PSP, the flags, SYST_RVR, SYST_CVR and the event
register 0, LR 0xFFFFFFFF. The levels of the 32 interrupt lines, a parameter of the host (D26), are 0 while no input has
given others: DESIGN CHOICE, notes/assumptions/40.md. -/
def State.reset : State where
  regs := Vector.replicate 13 0
  msp := 0
  psp := 0
  lr := 0xFFFFFFFF
  pc := 0
  apsr := { n := false, z := false, c := false, v := false }
  ipsr := 0
  thumb := false
  primask := false
  spsel := false
  nvic := { enable := 0, pending := 0, active := 0, ipr := Vector.replicate 8 0, line := 0, lastLine := 0 }
  scb := { sevOnPend := false, sleepDeep := false, sleepOnExit := false, ccr := 0x00000204, shpr2 := 0, shpr3 := 0,
           resetRequest := false }
  systick := { enable := false, tickInt := false, clkSource := false, countFlag := false, reload := 0, current := 0 }
  event := false
  sleep := .awake
  lockup := false
  mem := []
  memMap := defaultMemMap
  inputs := []
  stored := []
  freeIndex := 0

end Sys2Proof.Machine
end

