-- ==== Sys2Proof/Machine/Nvic.lean ====
section
/-!
DEFINITION. Exception state and priorities (60_exceptions.md R402, R415 to R425), the sampling of the interrupt lines
(R460 to R463), the SysTick counter (R470) and the conditions that end sleep (R480 to R482).
-/

namespace Sys2Proof.Machine

/-! ## Modes -/

/-- Handler mode, exactly when IPSR is not 0 (R400). -/
def State.handlerMode (s : State) : Bool := s.ipsr != 0

/-! ## Pending and active bits -/

/-- Bit `e` of an exception bit vector set to `b`. -/
def setBit (v : BitVec 48) (e : Nat) (b : Bool) : BitVec 48 :=
  if b then v ||| BitVec.twoPow 48 e else v &&& ~~~BitVec.twoPow 48 e

/-- `pending[e]` (R90). -/
def State.isPending (s : State) (e : Nat) : Bool := s.nvic.pending.getLsbD e

/-- `active[e]` (R90). -/
def State.isActive (s : State) (e : Nat) : Bool := s.nvic.active.getLsbD e

/-- `PEND[31:0]`, the pending bits of IRQ0 to IRQ31 (R58). -/
def State.irqPending (s : State) : BitVec 32 := s.nvic.pending.extractLsb' 16 32

/-- The active bits of IRQ0 to IRQ31. -/
def State.irqActive (s : State) : BitVec 32 := s.nvic.active.extractLsb' 16 32

/-- New pending bits. An exception that enters the pending state sets the event register when SCR.SEVONPEND is set
(R482, 44_misc.md R372 [2]). -/
def State.withPending (s : State) (p : BitVec 48) : State :=
  { s with
    nvic := { s.nvic with pending := p }
    event := s.event || (s.scb.sevOnPend && p &&& ~~~s.nvic.pending != 0) }

/-- New pending bits for the interrupts. -/
def State.withIrqPending (s : State) (p : BitVec 32) : State := s.withPending (p ++ s.nvic.pending.extractLsb' 0 16)

/-- `pending[e] <- b`. -/
def State.setPending (s : State) (e : Nat) (b : Bool) : State := s.withPending (setBit s.nvic.pending e b)

/-! ## Priorities -/

/-- The exceptions that have a pending and an active bit (R90), in rising order of their numbers. -/
def exceptionNumbers : List Nat := [2, 3, 11, 14, 15] ++ (List.range 32).map (· + 16)

/-- `Priority(e)` (R415); a lower value is a higher priority. A number that names no exception gets the base level. -/
def State.priority (s : State) (e : Nat) : Int :=
  if e = 1 then -3
  else if e = 2 then -2
  else if e = 3 then -1
  else if e = 11 then (s.scb.shpr2.extractLsb' 24 8).toNat
  else if e = 14 then (s.scb.shpr3.extractLsb' 16 8).toNat
  else if e = 15 then (s.scb.shpr3.extractLsb' 24 8).toNat
  else if h : 16 ≤ e ∧ e ≤ 47 then
    ((s.nvic.ipr[(e - 16) / 4]'(by omega)).extractLsb' (8 * ((e - 16) % 4)) 8).toNat
  else 256

/-- `ExecutionPriority()` without its PRIMASK line (R420, R480): 256, or the least priority value of an active
exception. -/
def State.activePriority (s : State) : Int :=
  (exceptionNumbers.filter s.isActive).foldl (fun p e => min p (s.priority e)) 256

/-- `ExecutionPriority()` (R420). -/
def State.executionPriority (s : State) : Int :=
  if s.primask && decide (0 < s.activePriority) then 0 else s.activePriority

/-- `Enabled(e)` (R421). There is no NMI on this hardware (R405). -/
def State.isEnabled (s : State) (e : Nat) : Bool :=
  if 16 ≤ e then s.nvic.enable.getLsbD (e - 16) else e == 3 || e == 11 || e == 14 || e == 15

/-- The exception of a list in rising order with the least `(Priority(e), e)` (R416). -/
def State.mostUrgent (s : State) : List Nat → Option Nat
  | [] => none
  | e :: es =>
    match s.mostUrgent es with
    | none => some e
    | some f => if s.priority f < s.priority e then some f else some e

/-- `Takeable(e)` (R425). -/
def State.takeable (s : State) (e : Nat) : Bool :=
  s.isPending e && s.isEnabled e && decide (s.priority e < s.executionPriority)

/-- `NextException()` (R425). -/
def State.nextException (s : State) : Option Nat := s.mostUrgent (exceptionNumbers.filter s.takeable)

/-- ICSR.VECTPENDING's exception: the pending and enabled exception of the highest priority (R465). -/
def State.vectPending (s : State) : Option Nat :=
  s.mostUrgent (exceptionNumbers.filter (fun e => s.isPending e && s.isEnabled e))

/-! ## Sleep -/

/-- `WakeCondition` for WFI and sleep-on-exit: PRIMASK does not hold it back (R480). -/
def State.wakeCondition (s : State) : Bool :=
  exceptionNumbers.any (fun e => s.isPending e && s.isEnabled e && decide (s.priority e < s.activePriority))

/-- Enters sleep; SCR.SLEEPDEEP at this moment says which mode (R92). -/
def State.fallAsleep (s : State) (cause : SleepCause) : State := { s with sleep := .asleep cause s.scb.sleepDeep }

/-- Ends sleep when a wake-up condition holds: R480 for WFI and sleep-on-exit, R482 for WFE, and a spurious wake-up at
any time (R481). A wake-up from WFE by the event register clears it. -/
def State.wakeUp (s : State) (spurious : Bool) : State :=
  match s.sleep with
  | .awake => s
  | .asleep .interrupt _ => if spurious || s.wakeCondition then { s with sleep := .awake } else s
  | .asleep .event _ =>
    if s.event then { s with sleep := .awake, event := false }
    else if spurious || s.nextException.isSome then { s with sleep := .awake } else s

/-! ## The NVIC and SysTick agents -/

/-- One sample of the interrupt lines (R461): a line that is high pends an interrupt that is not active, a rising edge
pends any. -/
def State.sampleLines (s : State) (lines : BitVec 32) : State :=
  let new := lines &&& (~~~s.irqActive ||| ~~~s.nvic.lastLine)
  let t := s.withIrqPending (s.irqPending ||| new)
  { t with nvic := { t.nvic with line := lines, lastLine := lines } }

/-- One tick of the SysTick counter's clock (R470). -/
def State.tick (s : State) : State :=
  if s.systick.enable then
    if s.systick.current = 0 then { s with systick := { s.systick with current := s.systick.reload } }
    else
      let t := { s with systick := { s.systick with current := s.systick.current - 1 } }
      if t.systick.current = 0 then
        let u := { t with systick := { t.systick with countFlag := true } }
        if u.systick.tickInt then u.setPending 15 true else u
      else t
  else s

/-- `n` ticks. -/
def State.ticks : Nat → State → State
  | 0, s => s
  | n + 1, s => (s.tick).ticks n

/-- What the NVIC and SysTick agents do before a core step (00_scope.md R23): one sample of the lines, then the ticks
of the clock that CLKSOURCE selects (R472). -/
def State.runAgents (s : State) (i : HostInput) : State :=
  let t := s.sampleLines i.lines
  t.ticks (if t.systick.clkSource then i.cpuTicks else i.refTicks)

/-- The host's input for this step and the state without it, which has stored nothing yet. With none left, the lines keep
their level, no tick comes, a takeable exception is taken and nothing else happens (notes/assumptions/9.md). -/
def State.takeInput (s : State) : HostInput × State :=
  match s.inputs with
  | i :: rest => (i, { s with inputs := rest, stored := [] })
  | [] =>
    ({ lines := s.nvic.line, cpuTicks := 0, refTicks := 0, takeException := true, wake := false,
       reset := .absent }, { s with stored := [] })

end Sys2Proof.Machine
end

