-- ==== Sys2Proof/Machine/Regs.lean ====
section
/-!
DEFINITION. The core registers as an instruction reads and writes them (00_scope.md R7), with the banked stack pointer
(10_state.md R34, R35) and the ways to write the program counter (00_scope.md R11).
-/

namespace Sys2Proof.Machine

/-- A word with bits [1:0] cleared: what a stack pointer holds (R35, 92_eei_decisions.md D17), and `Align(v, 4)`. -/
def alignWord (v : Word) : Word := v &&& 0xFFFFFFFC#32

/-- A word with bit [0] cleared: `v[31:1] : 0` (R11). -/
def clearBit0 (v : Word) : Word := v &&& 0xFFFFFFFE#32

/-! ## The stack pointer -/

/-- Whether the current stack pointer is PSP: Thread mode with CONTROL bit [1] set (R34). -/
def State.onProcessStack (s : State) : Bool := !s.handlerMode && s.spsel

/-- MSP as it reads (R35). -/
def State.mainSp (s : State) : Word := alignWord s.msp

/-- PSP as it reads (R35). -/
def State.processSp (s : State) : Word := alignWord s.psp

/-- `x[13]`, the current stack pointer (R34). -/
def State.sp (s : State) : Word := if s.onProcessStack then s.processSp else s.mainSp

/-- `MSP <- v`; bits [1:0] are dropped (R35). -/
def State.setMainSp (s : State) (v : Word) : State := { s with msp := alignWord v }

/-- `PSP <- v`; bits [1:0] are dropped (R35). -/
def State.setProcessSp (s : State) (v : Word) : State := { s with psp := alignWord v }

/-- `x[13] <- v` (R7, R34). -/
def State.setSp (s : State) (v : Word) : State := if s.onProcessStack then s.setProcessSp v else s.setMainSp v

/-! ## Writing the program counter (R11) -/

/-- `pc <- instr_addr + n`, for an instruction of `n` bytes that does not write the PC. -/
def State.advance (s : State) (n : Nat) : State := { s with pc := s.pc + BitVec.ofNat 32 n }

/-- `BranchWritePC(a)`: EPSR.T is unchanged. -/
def State.branchTo (s : State) (a : Word) : State := { s with pc := clearBit0 a }

/-- The branch of `BXWritePC` and `LoadWritePC`: `EPSR.T <- a[0]; pc <- a[31:1] : 0`. -/
def State.interworkTo (s : State) (a : Word) : State := { s with thumb := a.getLsbD 0, pc := clearBit0 a }

/-! ## Registers -/

/-- `x[r]` for a low register. -/
def State.readLow (s : State) (r : LowReg) : Word := s.regs[r.val]

/-- `x[r] <- v` for a low register. -/
def State.writeLow (s : State) (r : LowReg) (v : Word) : State := { s with regs := s.regs.set r.val v }

/-- The PC as an operand: the instruction's address plus 4 (R20). -/
def State.pcOperand (s : State) : Word := s.pc + 4

/-- `x[r]` (R7). -/
def State.readReg (s : State) (r : Reg) : Word :=
  if h : r.val < 13 then s.regs[r.val]
  else if r = 13 then s.sp
  else if r = 14 then s.lr
  else s.pcOperand

/-- `x[r] <- v` (R7); R15 is written by `BranchWritePC`. -/
def State.writeReg (s : State) (r : Reg) (v : Word) : State :=
  if h : r.val < 13 then { s with regs := s.regs.set r.val v }
  else if r = 13 then s.setSp v
  else if r = 14 then { s with lr := v }
  else s.branchTo v

end Sys2Proof.Machine
end

