-- ==== Sys2Proof/Machine/Flags.lean ====
section
/-!
DEFINITION. Every flag computation: addition with carry (00_scope.md R12), the shifts (R16 to R19), the flag-setting
helpers (R13) and the condition codes (R15).
-/

namespace Sys2Proof.Machine

/-! ## Addition (R12) -/

/-- What `AddWithCarry` returns. -/
structure AddResult where
  result : Word
  carry : Bool
  overflow : Bool
  deriving DecidableEq, Repr

/-- `AddWithCarry(a, b, cin)` (R12): the exact unsigned and signed sums, then the 32-bit result and the two comparisons
with it. -/
def addWithCarry (a b : Word) (cin : Bool) : AddResult :=
  let usum : Nat := a.toNat + b.toNat + cin.toNat
  let ssum : Int := a.toInt + b.toInt + cin.toNat
  let result := BitVec.ofNat 32 usum
  { result, carry := decide (2 ^ 32 ≤ usum), overflow := decide (result.toInt ≠ ssum) }

/-! ## Shifts of length at least 1 (R16 to R19) -/

/-- What a shift returns. -/
structure ShiftResult where
  result : Word
  carry : Bool
  deriving DecidableEq, Repr

/-- `LSL_C(v, n)` (R16). -/
def lslC (v : Word) (n : Nat) : ShiftResult :=
  if n ≤ 31 then { result := v <<< n, carry := v.getLsbD (32 - n) }
  else if n = 32 then { result := 0, carry := v.getLsbD 0 }
  else { result := 0, carry := false }

/-- `LSR_C(v, n)` (R17). -/
def lsrC (v : Word) (n : Nat) : ShiftResult :=
  if n ≤ 31 then { result := v >>> n, carry := v.getLsbD (n - 1) }
  else if n = 32 then { result := 0, carry := v.getLsbD 31 }
  else { result := 0, carry := false }

/-- `ASR_C(v, n)` (R18). -/
def asrC (v : Word) (n : Nat) : ShiftResult :=
  if n ≤ 31 then { result := v.sshiftRight n, carry := v.getLsbD (n - 1) }
  else { result := if v.getLsbD 31 then BitVec.allOnes 32 else 0, carry := v.getLsbD 31 }

/-- `ROR_C(v, n)` (R19). -/
def rorC (v : Word) (n : Nat) : ShiftResult :=
  let m := n % 32
  let result := if m = 0 then v else v >>> m ||| v <<< (32 - m)
  { result, carry := result.getLsbD 31 }

/-! ## Setting flags (R13) -/

/-- `SetNZ(r)`: N and Z from a result, C and V unchanged. -/
def State.setNZ (s : State) (r : Word) : State :=
  { s with apsr := { s.apsr with n := r.getLsbD 31, z := decide (r = 0) } }

/-- `SetNZ(r); APSR.C <- c`: V unchanged. -/
def State.setNZC (s : State) (r : ShiftResult) : State :=
  { s with apsr := { s.apsr with n := r.result.getLsbD 31, z := decide (r.result = 0), c := r.carry } }

/-- `SetNZCV(r, c, v)`. -/
def State.setNZCV (s : State) (r : AddResult) : State :=
  { s with apsr := { n := r.result.getLsbD 31, z := decide (r.result = 0), c := r.carry, v := r.overflow } }

/-! ## Conditions (R15) -/

/-- `ConditionPassed(cond)`; LE holds when Z is set OR N differs from V (90_conflicts.md C21). -/
def conditionPassed (c : Cond) (f : Apsr) : Bool :=
  match c with
  | .eq => f.z
  | .ne => !f.z
  | .cs => f.c
  | .cc => !f.c
  | .mi => f.n
  | .pl => !f.n
  | .vs => f.v
  | .vc => !f.v
  | .hi => f.c && !f.z
  | .ls => !f.c || f.z
  | .ge => f.n == f.v
  | .lt => f.n != f.v
  | .gt => !f.z && f.n == f.v
  | .le => f.z || f.n != f.v

end Sys2Proof.Machine
end

