-- ==== Sys2Proof/Machine/Mem.lean ====
section
/-!
DEFINITION. Memory as a canonical list of bytes (20_memory.md R130 to R133), the memory map `MemMap` (R138) and the
fixed address regions (R152).
-/

namespace Sys2Proof.Machine

/-! ## Bytes -/

/-- What an address that memory does not list reads as. DESIGN CHOICE (notes/assumptions/7.md), unsafe: the initial
memory contents are a parameter of the spec (92_eei_decisions.md D6). -/
def Memory.unlisted : Byte := 0

/-- The number of byte addresses (R50). -/
def addressSpace : Nat := 2 ^ 32

/-- The listed byte at an address, if any. -/
def Memory.find : Memory → Nat → Option Byte
  | [], _ => none
  | (k, v) :: rest, a => if k = a then some v else Memory.find rest a

/-- `mem[a]`, the byte at address `a` (R132). -/
def Memory.readByte (m : Memory) (a : Nat) : Byte := (m.find a).getD Memory.unlisted

/-- Lists byte `b` at address `a`, keeping the addresses rising. -/
def Memory.insert (a : Nat) (b : Byte) : Memory → Memory
  | [] => [(a, b)]
  | (k, v) :: rest =>
    if a < k then (a, b) :: (k, v) :: rest
    else if a = k then (a, b) :: rest
    else (k, v) :: Memory.insert a b rest

/-- Unlists address `a`. -/
def Memory.remove (a : Nat) : Memory → Memory
  | [] => []
  | (k, v) :: rest => if a = k then rest else (k, v) :: Memory.remove a rest

/-- `mem[a] <- b` (R132); a byte equal to `Memory.unlisted` is not listed, so that equal memories are equal lists. -/
def Memory.writeByte (m : Memory) (a : Nat) (b : Byte) : Memory :=
  if b = Memory.unlisted then m.remove a else m.insert a b

/-- Addresses strictly rising from `lo` on, inside the address space, and no entry that an unlisted address reads as. -/
def Memory.wfFrom : Nat → Memory → Bool
  | _, [] => true
  | lo, (k, v) :: rest => decide (lo ≤ k) && decide (k < addressSpace) && v != Memory.unlisted && Memory.wfFrom (k + 1) rest

/-- The canonical form of a memory. -/
def Memory.wf (m : Memory) : Bool := Memory.wfFrom 0 m

/-! ## Halfwords and words, little-endian (R131, R132) -/

/-- The address `i` bytes after `a`, modulo 2^32 (D7). -/
def byteAddress (a : Word) (i : Nat) : Nat := (a + BitVec.ofNat 32 i).toNat

/-- `mem[a+1] : mem[a]`. -/
def Memory.readHalfword (m : Memory) (a : Word) : Halfword :=
  m.readByte (byteAddress a 1) ++ m.readByte (byteAddress a 0)

/-- `mem[a+3] : mem[a+2] : mem[a+1] : mem[a]`. -/
def Memory.readWord (m : Memory) (a : Word) : Word :=
  m.readByte (byteAddress a 3) ++ m.readByte (byteAddress a 2) ++ m.readByte (byteAddress a 1)
    ++ m.readByte (byteAddress a 0)

/-- Stores the low 16 bits, the least significant byte at the lower address. -/
def Memory.writeHalfword (m : Memory) (a : Word) (v : Halfword) : Memory :=
  (m.writeByte (byteAddress a 0) (v.extractLsb' 0 8)).writeByte (byteAddress a 1) (v.extractLsb' 8 8)

/-- Stores the four bytes of a word, the least significant byte at the lowest address. -/
def Memory.writeWord (m : Memory) (a : Word) (v : Word) : Memory :=
  (((m.writeByte (byteAddress a 0) (v.extractLsb' 0 8)).writeByte (byteAddress a 1)
    (v.extractLsb' 8 8)).writeByte (byteAddress a 2) (v.extractLsb' 16 8)).writeByte (byteAddress a 3)
    (v.extractLsb' 24 8)

/-! ## The fixed regions (R152) -/

/-- The regions of the processor's memory map (R152). -/
inductive AddressRegion where
  | code | sram | peripheral | externalRam | externalDevice | privatePeripheralBus | vendor
  deriving DecidableEq, Repr

/-- The region an address lies in (R152). -/
def addressRegion (a : Word) : AddressRegion :=
  if a < 0x20000000#32 then .code
  else if a < 0x40000000#32 then .sram
  else if a < 0x60000000#32 then .peripheral
  else if a < 0xA0000000#32 then .externalRam
  else if a < 0xE0000000#32 then .externalDevice
  else if a < 0xE0100000#32 then .privatePeripheralBus
  else .vendor

/-- The Execute Never attribute of a region (R151, R152). -/
def AddressRegion.executeNever : AddressRegion → Bool
  | .code | .sram | .externalRam => false
  | .peripheral | .externalDevice | .privatePeripheralBus | .vendor => true

/-- The memory types (R150). -/
inductive MemoryType where
  | normal | device | stronglyOrdered
  deriving DecidableEq, Repr

/-- The memory type of a region (R152). One core performs its accesses in program order whatever the type (R156), so
no meaning reads it. -/
def AddressRegion.memoryType : AddressRegion → MemoryType
  | .code | .sram | .externalRam => .normal
  | .peripheral | .externalDevice | .vendor => .device
  | .privatePeripheralBus => .stronglyOrdered

/-! ## The memory map (R138, D6) -/

/-- Whether a window answers an access of this kind at byte address `a`. -/
def Region.answers (r : Region) (kind : AccessKind) (a : Nat) : Bool :=
  decide (r.base ≤ a) && decide (a < r.base + r.size) &&
    match kind with
    | .read => r.readable
    | .write => r.writable
    | .fetch => r.executable

/-- What answers an access: memory, a device of the microcontroller, or nothing (a bus error). -/
inductive Target where
  | memory | device | nothing
  deriving DecidableEq, Repr

/-- What answers at one byte address: the first window of the map that does. -/
def targetOfByte (map : List Region) (kind : AccessKind) (a : Nat) : Target :=
  match map.find? (fun r => r.answers kind a) with
  | none => .nothing
  | some r =>
    match r.kind with
    | .memory => .memory
    | .device => .device

/-- What answers an access of `n` bytes at `a` (R138): memory when memory answers every byte, nothing when some byte
is unmapped, else a device. -/
def targetOf (map : List Region) (kind : AccessKind) (a : Word) (n : Nat) : Target :=
  let ts := (List.range n).map (fun i => targetOfByte map kind (byteAddress a i))
  if ts.all (· == .memory) then .memory
  else if ts.any (· == .nothing) then .nothing
  else .device

end Sys2Proof.Machine
end

