-- ==== Sys2Proof/Machine/Operands.lean ====
section
/-!
DEFINITION. Every operand form: immediates and offsets (30_encoding.md R183), addresses (40_memory_access.md R231 to
R252), shift lengths (41_data_processing_a.md R280 to R288), branch targets (43_branch.md R330 to R333), register lists
(R249 to R252) and the special registers as MRS and MSR see them (44_misc.md R364, R366).
-/

namespace Sys2Proof.Machine

/-! ## Immediates and addresses -/

/-- An immediate field times `scale`, zero-extended (R8). -/
def immediate {n : Nat} (imm : BitVec n) (scale : Word) : Word := imm.setWidth 32 * scale

/-- `x[n] + zext_32(imm5) * size`, the address of the immediate-offset loads and stores (R232 to R239). -/
def State.immAddress (s : State) (rn : LowReg) (imm5 : BitVec 5) (size : Word) : Word :=
  s.readLow rn + immediate imm5 size

/-- `x[n] + x[m]`, the address of the register-offset loads and stores (R240 to R247). -/
def State.regAddress (s : State) (rn rm : LowReg) : Word := s.readLow rn + s.readLow rm

/-- `x[13] + zext_32(imm8) * 4`, the SP-relative address (R233, R235, R265). -/
def State.spAddress (s : State) (imm8 : BitVec 8) : Word := s.sp + immediate imm8 4

/-- `Align(instr_addr + 4, 4) + zext_32(imm8) * 4`, the PC-relative address (R20, R231, R248). -/
def State.pcAddress (s : State) (imm8 : BitVec 8) : Word := alignWord s.pcOperand + immediate imm8 4

/-! ## Shift lengths -/

/-- The length of ASRS and LSRS by an immediate: the field 0 means 32 (R282, R286). -/
def rightShiftLength (imm5 : BitVec 5) : Nat := if imm5 = 0 then 32 else imm5.toNat

/-- `x[s][7:0]`, the length of a shift by a register (R280). -/
def State.shiftLength (s : State) (rs : LowReg) : Nat := ((s.readLow rs).extractLsb' 0 8).toNat

/-! ## Branch targets -/

/-- `instr_addr + 4 + sext_32(offset : 0)`, the target of a branch whose field counts halfwords (R330, R331, R333). -/
def State.branchTarget {n : Nat} (s : State) (offset : BitVec n) : Word :=
  s.pcOperand + (offset ++ 0#1).signExtend 32

/-! ## Register lists -/

/-- The low registers in increasing number. -/
def lowRegs : List LowReg := [0, 1, 2, 3, 4, 5, 6, 7]

/-- The registers of a list field, in increasing number (R249). -/
def registersOf (list : BitVec 8) : List LowReg := lowRegs.filter (fun r => list.getLsbD r.val)

/-- The number of bytes that `n` words take. -/
def wordsSize (n : Nat) : Word := BitVec.ofNat 32 (4 * n)

/-! ## Special registers -/

/-- `N:Z:C:V : zeros(28)` (R39, R40). -/
def Apsr.toWord (f : Apsr) : Word :=
  BitVec.ofBool f.n ++ BitVec.ofBool f.z ++ BitVec.ofBool f.c ++ BitVec.ofBool f.v ++ 0#28

/-- The flags in bits [31:28] of a word (R39). -/
def Apsr.ofWord (v : Word) : Apsr :=
  { n := v.getLsbD 31, z := v.getLsbD 30, c := v.getLsbD 29, v := v.getLsbD 28 }

/-- What MRS reads (R364): EPSR bits read as zero, and CONTROL bit [1] reads as zero in Handler mode (R46). -/
def State.readSpecial (s : State) : SpecReg → Word
  | .apsr | .eapsr => s.apsr.toWord
  | .iapsr | .psr => s.apsr.toWord ||| s.ipsr.setWidth 32
  | .ipsr | .iepsr => s.ipsr.setWidth 32
  | .epsr => 0
  | .msp => s.mainSp
  | .psp => s.processSp
  | .primask => 0#31 ++ BitVec.ofBool s.primask
  | .control => 0#30 ++ BitVec.ofBool s.onProcessStack ++ 0#1

/-- What MSR writes (R366): IPSR and EPSR bits ignore it, and CONTROL ignores it in Handler mode (R46). -/
def State.writeSpecial (s : State) (r : SpecReg) (v : Word) : State :=
  match r with
  | .apsr | .iapsr | .eapsr | .psr => { s with apsr := Apsr.ofWord v }
  | .ipsr | .epsr | .iepsr => s
  | .msp => s.setMainSp v
  | .psp => s.setProcessSp v
  | .primask => { s with primask := v.getLsbD 0 }
  | .control => if s.handlerMode then s else { s with spsel := v.getLsbD 1 }

end Sys2Proof.Machine
end

