-- ==== Sys2Proof/Config.lean ====
section
/-!
DEFINITION. What the spec leaves open for every run, as constants WITHOUT a body: nothing in Lean can evaluate one or
prove a value of it, so a statement holds whatever the hardware does there. A draw applies one of them to
`State.freeIndex`, which every draw advances, so that no two draws are tied to each other.
-/

namespace Sys2Proof

/-- An open 32-bit value (93_implementation_defined.md U1, U14, U15, U19): the value of draw number `n`.
DESIGN CHOICE (notes/assumptions/1.md), safe. -/
opaque Config.freeWord : Nat → Word

/-- An open bit (U2, U13, U14, U16): the value of draw number `n`. DESIGN CHOICE (notes/assumptions/1.md), safe. -/
opaque Config.freeBit : Nat → Bool

/-- The three readings of WFE on an LPC111x that 92_eei_decisions.md D4 names as all possible. -/
inductive WfeReading where
  /-- WFE only advances the PC: "when writing software assume that WFE behaves as NOP" (R372). -/
  | nop
  /-- WFE does what R372's pseudocode for the generic Cortex-M0 says: it tests the event register and may sleep. -/
  | generic
  /-- WFE is not executed and raises HardFault. -/
  | fault
  deriving DecidableEq, Repr, Inhabited

/-- Which reading of WFE holds at draw number `n` (R372, D4). DESIGN CHOICE (notes/assumptions/2.md), safe: a claim
about WFE must hold for each of the three. -/
opaque Config.wfeReading : Nat → WfeReading

end Sys2Proof
end

