-- ==== Sys2Proof/Machine/Draw.lean ====
section
/-!
DEFINITION. Drawing an open value: the value of a constant without a body at `State.freeIndex`, which the draw advances
(notes/assumptions/1.md). A meaning uses a draw where 93_implementation_defined.md says "any value".
-/

namespace Sys2Proof.Machine

/-- Counts one draw. -/
def State.afterDraw (s : State) : State := { s with freeIndex := s.freeIndex + 1 }

/-- An open word and the state after the draw. -/
def State.drawWord (s : State) : Word × State := (Config.freeWord s.freeIndex, s.afterDraw)

/-- An open bit and the state after the draw. -/
def State.drawBit (s : State) : Bool × State := (Config.freeBit s.freeIndex, s.afterDraw)

/-- The reading of WFE that holds now (D4) and the state after the draw. -/
def State.drawWfeReading (s : State) : WfeReading × State := (Config.wfeReading s.freeIndex, s.afterDraw)

end Sys2Proof.Machine
end

