-- ==== Sys2Proof/Machine/Ppb.lean ====
section
/-!
DEFINITION. The memory-mapped registers of the Private Peripheral Bus: the NVIC (10_state.md R55 to R61), the System
Control Block (R65 to R73) and the system timer (R80 to R84), with the effects of a word read and a word write
(20_memory.md R142, 60_exceptions.md R464, R465, R471).
-/

namespace Sys2Proof.Machine

/-- The memory-mapped registers (R55, R65, R80). -/
inductive PpbReg where
  | iser | icer | ispr | icpr
  | ipr (n : Fin 8)
  | cpuid | icsr | aircr | scr | ccr | shpr2 | shpr3
  | systCsr | systRvr | systCvr | systCalib
  deriving DecidableEq, Repr

/-- The register at a word-aligned address of the Private Peripheral Bus, if one is defined there (R55, R65, R80). -/
def ppbRegAt (a : Word) : Option PpbReg :=
  if a = 0xE000E010#32 then some .systCsr
  else if a = 0xE000E014#32 then some .systRvr
  else if a = 0xE000E018#32 then some .systCvr
  else if a = 0xE000E01C#32 then some .systCalib
  else if a = 0xE000E100#32 then some .iser
  else if a = 0xE000E180#32 then some .icer
  else if a = 0xE000E200#32 then some .ispr
  else if a = 0xE000E280#32 then some .icpr
  else if a.extractLsb' 5 27 = (0xE000E400#32).extractLsb' 5 27 then some (.ipr (a.extractLsb' 2 3).toFin)
  else if a = 0xE000ED00#32 then some .cpuid
  else if a = 0xE000ED04#32 then some .icsr
  else if a = 0xE000ED0C#32 then some .aircr
  else if a = 0xE000ED10#32 then some .scr
  else if a = 0xE000ED14#32 then some .ccr
  else if a = 0xE000ED1C#32 then some .shpr2
  else if a = 0xE000ED20#32 then some .shpr3
  else none

/-- CPUID's value (R66). -/
def cpuidValue : Word := 0x410CC200

/-- SYST_CALIB's value (R84, D14). -/
def systCalibValue : Word := 0xC0000000

/-- The implemented bits of an IPR register: bits [7:6] of each byte (R60). -/
def iprMask : Word := 0xC0C0C0C0

/-- The implemented bits of SHPR2 (R72). -/
def shpr2Mask : Word := 0xC0000000

/-- The implemented bits of SHPR3 (R73). -/
def shpr3Mask : Word := 0xC0C00000

/-- ICSR on a read (R465), with the open values of the write-only bits PENDSVCLR [27] and PENDSTCLR [25] (U16). -/
def State.icsrValue (s : State) (svClr stClr : Bool) : Word :=
  0b000#3 ++ BitVec.ofBool (s.isPending 14) ++ BitVec.ofBool svClr ++ BitVec.ofBool (s.isPending 15)
    ++ BitVec.ofBool stClr ++ 0b00#2 ++ BitVec.ofBool (s.irqPending != 0) ++ 0b0000#4
    ++ BitVec.ofNat 6 (s.vectPending.getD 0) ++ 0b000000#6 ++ s.ipsr

/-- SCR on a read (R70). -/
def State.scrValue (s : State) : Word :=
  0#27 ++ BitVec.ofBool s.scb.sevOnPend ++ 0b0#1 ++ BitVec.ofBool s.scb.sleepDeep ++ BitVec.ofBool s.scb.sleepOnExit
    ++ 0b0#1

/-- SYST_CSR on a read (R81). -/
def State.systCsrValue (s : State) : Word :=
  0#15 ++ BitVec.ofBool s.systick.countFlag ++ 0#13 ++ BitVec.ofBool s.systick.clkSource
    ++ BitVec.ofBool s.systick.tickInt ++ BitVec.ofBool s.systick.enable

/-- A word read of a register and its side effects: a read of SYST_CSR clears COUNTFLAG (R471). The upper half of
AIRCR and the write-only bits of ICSR read as open values (U15, U16). -/
def State.readPpbReg (s : State) : PpbReg → Word × State
  | .iser | .icer => (s.nvic.enable, s)
  | .ispr | .icpr => (s.irqPending, s)
  | .ipr n => (s.nvic.ipr[n], s)
  | .cpuid => (cpuidValue, s)
  | .icsr =>
    let (svClr, t) := s.drawBit
    let (stClr, u) := t.drawBit
    (s.icsrValue svClr stClr, u)
  | .aircr =>
    let (w, t) := s.drawWord
    (w.extractLsb' 16 16 ++ 0#16, t)
  | .scr => (s.scrValue, s)
  | .ccr => (s.scb.ccr, s)
  | .shpr2 => (s.scb.shpr2, s)
  | .shpr3 => (s.scb.shpr3, s)
  | .systCsr => (s.systCsrValue, { s with systick := { s.systick with countFlag := false } })
  | .systRvr => (s.systick.reload.setWidth 32, s)
  | .systCvr => (s.systick.current.setWidth 32, s)
  | .systCalib => (systCalibValue, s)

/-- A pair of write-one-to-set and write-one-to-clear bits for exception `e` in ICSR (R465); writing 1 to both leaves
the pending bit open (R68, U2). -/
def State.writePendPair (s : State) (e : Nat) (set clear : Bool) : State :=
  match set, clear with
  | false, false => s
  | true, false => s.setPending e true
  | false, true => s.setPending e false
  | true, true =>
    let (b, t) := s.drawBit
    t.setPending e b

/-- A word write of a register (R464, R465, R471): read-only registers and reserved bits ignore it (D23), a write to
AIRCR without the key 0x05FA is ignored (R69), and SYSRESETREQ asks for a reset (R503). -/
def State.writePpbReg (s : State) (r : PpbReg) (w : Word) : Access State :=
  match r with
  | .iser => .ok { s with nvic := { s.nvic with enable := s.nvic.enable ||| w } }
  | .icer => .ok { s with nvic := { s.nvic with enable := s.nvic.enable &&& ~~~w } }
  | .ispr => .ok (s.withIrqPending (s.irqPending ||| w))
  | .icpr => .ok (s.withIrqPending (s.irqPending &&& ~~~w))
  | .ipr n => .ok { s with nvic := { s.nvic with ipr := s.nvic.ipr.set n (w &&& iprMask) } }
  | .cpuid | .ccr | .systCalib => .ok s
  | .icsr =>
    .ok ((s.writePendPair 14 (w.getLsbD 28) (w.getLsbD 27)).writePendPair 15 (w.getLsbD 26) (w.getLsbD 25))
  | .aircr =>
    if w.extractLsb' 16 16 = 0x05FA#16 then
      if w.getLsbD 1 then .fault .vectClrActive
      else .ok { s with scb := { s.scb with resetRequest := s.scb.resetRequest || w.getLsbD 2 } }
    else .ok s
  | .scr =>
    .ok { s with scb := { s.scb with
      sevOnPend := w.getLsbD 4, sleepDeep := w.getLsbD 2, sleepOnExit := w.getLsbD 1 } }
  | .shpr2 => .ok { s with scb := { s.scb with shpr2 := w &&& shpr2Mask } }
  | .shpr3 => .ok { s with scb := { s.scb with shpr3 := w &&& shpr3Mask } }
  | .systCsr =>
    .ok { s with systick := { s.systick with
      clkSource := w.getLsbD 2, tickInt := w.getLsbD 1, enable := w.getLsbD 0 } }
  | .systRvr => .ok { s with systick := { s.systick with reload := w.extractLsb' 0 24 } }
  | .systCvr => .ok { s with systick := { s.systick with current := 0, countFlag := false } }

/-- A word read in the Private Peripheral Bus region; where no register is defined the value is open (D28, U19). -/
def State.ppbRead (s : State) (a : Word) : Word × State :=
  match ppbRegAt a with
  | some r => s.readPpbReg r
  | none => s.drawWord

/-- A word write in the Private Peripheral Bus region; where no register is defined it has no effect (D28, U19). -/
def State.ppbWrite (s : State) (a : Word) (w : Word) : Access State :=
  match ppbRegAt a with
  | some r => s.writePpbReg r w
  | none => .ok s

end Sys2Proof.Machine
end

