-- ==== Sys2Proof/Machine/Ops.lean ====
section
/-!
DEFINITION. The operations that instructions share: one memory access with its checks (20_memory.md R132 to R142),
taking an exception (60_exceptions.md R430), raising HardFault (R428, R445), returning from an exception (R440), and the
multiple transfers (40_memory_access.md R249 to R252).
-/

namespace Sys2Proof.Machine

/-- What an instruction ends in. -/
abbrev Result := Host.Outcome State Fault Refusal

/-! ## Accesses in sequence -/

/-- One access after another; a failed access stops the sequence. -/
def Access.bind {α β : Type} (x : Access α) (f : α → Access β) : Access β :=
  match x with
  | .ok a => f a
  | .hardFault c => .hardFault c
  | .fault r => .fault r
  | .refused r => .refused r

/-! ## One memory access (R132, R135, R138, R141)

The checks come in the order of 92_eei_decisions.md D11: alignment, then the word-only region, then the memory map. -/

/-- Whether an address is a multiple of the access size (R135). -/
def aligned (a : Word) (n : Nat) : Bool := a.toNat % n == 0

/-- Whether an address lies in the Private Peripheral Bus region (R141, R152). -/
def inPpb (a : Word) : Bool := addressRegion a == .privatePeripheralBus

/-- The checks of an access of `n` bytes outside the Private Peripheral Bus, then the access itself. -/
def State.access {α : Type} (s : State) (kind : AccessKind) (a : Word) (n : Nat) (perform : Unit → α) : Access α :=
  match targetOf s.memMap kind a n with
  | .memory => .ok (perform ())
  | .nothing => .hardFault .busErrorData
  | .device => .refused .deviceAccess

/-- `MemRead(a, 4)`; a read of a register can change the state (R142). -/
def State.loadWord (s : State) (a : Word) : Access (Word × State) :=
  if !aligned a 4 then .hardFault .unaligned
  else if inPpb a then .ok (s.ppbRead a)
  else s.access .read a 4 (fun _ => (s.mem.readWord a, s))

/-- `MemRead(a, 2)`; the Private Peripheral Bus takes word accesses only (R141, D12). -/
def State.loadHalfword (s : State) (a : Word) : Access Halfword :=
  if !aligned a 2 then .hardFault .unaligned
  else if inPpb a then .hardFault .busErrorData
  else s.access .read a 2 (fun _ => s.mem.readHalfword a)

/-- `MemRead(a, 1)` (R141, D12). -/
def State.loadByte (s : State) (a : Word) : Access Byte :=
  if inPpb a then .hardFault .busErrorData
  else s.access .read a 1 (fun _ => s.mem.readByte (byteAddress a 0))

/-- Memory with the `n` bytes from `a` on stored to. -/
def State.storeTo (s : State) (m : Memory) (a : Word) (n : Nat) : State :=
  { s with mem := m, stored := (List.range n).map (fun i => a + BitVec.ofNat 32 i) ++ s.stored }

/-- `MemWrite(a, 4, v)`; a write of a register has the effects of 10_state.md (R142). -/
def State.storeWord (s : State) (a : Word) (v : Word) : Access State :=
  if !aligned a 4 then .hardFault .unaligned
  else if inPpb a then s.ppbWrite a v
  else s.access .write a 4 (fun _ => s.storeTo (s.mem.writeWord a v) a 4)

/-- `MemWrite(a, 2, v)` (R141, D12). -/
def State.storeHalfword (s : State) (a : Word) (v : Halfword) : Access State :=
  if !aligned a 2 then .hardFault .unaligned
  else if inPpb a then .hardFault .busErrorData
  else s.access .write a 2 (fun _ => s.storeTo (s.mem.writeHalfword a v) a 2)

/-- `MemWrite(a, 1, v)` (R141, D12). -/
def State.storeByte (s : State) (a : Word) (v : Byte) : Access State :=
  if inPpb a then .hardFault .busErrorData
  else s.access .write a 1 (fun _ => s.storeTo (s.mem.writeByte (byteAddress a 0) v) a 1)

/-! ## Taking an exception (R430, R431, R433, R437) -/

/-- The lockup state reached from `s`; all else is frozen as it was before the faulting instruction (R445, D31). -/
def State.lockedUp (frozen s : State) : State := { frozen with lockup := true, stored := s.stored }

/-- The address of the stack frame: `(sp - 0x20) AND NOT 4` (R431). -/
def State.framePointer (s : State) : Word := (s.sp - 0x20#32) &&& ~~~4#32

/-- The stacked xPSR: `N:Z:C:V : 000 : T : zeros(14) : align : 000 : IPSR`, with `align = sp[2]` (R430, R431). -/
def State.stackedPsr (s : State) : Word :=
  BitVec.ofBool s.apsr.n ++ BitVec.ofBool s.apsr.z ++ BitVec.ofBool s.apsr.c ++ BitVec.ofBool s.apsr.v ++ 0#3
    ++ BitVec.ofBool s.thumb ++ 0#14 ++ BitVec.ofBool (s.sp.getLsbD 2) ++ 0#3 ++ s.ipsr

/-- The eight words of the stack frame, lowest address first (R433, D24). -/
def State.frameWords (s : State) (ret : Word) : List Word :=
  [s.regs[0], s.regs[1], s.regs[2], s.regs[3], s.regs[12], s.lr, ret, s.stackedPsr]

/-- The EXC_RETURN value that entry writes to LR (R430, R441). -/
def State.excReturn (s : State) : Word :=
  if s.handlerMode then 0xFFFFFFF1#32 else if s.spsel then 0xFFFFFFFD#32 else 0xFFFFFFF9#32

/-- Stacks words at rising addresses. A word that cannot be written for a bus error is lost (R437, D32); the answer
says whether one was. -/
def State.stackWords : List Word → Word → State → Access (State × Bool)
  | [], _, s => .ok (s, false)
  | w :: ws, a, s =>
    match s.storeWord a w with
    | .ok t => State.stackWords ws (a + 4) t
    | .hardFault _ => (State.stackWords ws (a + 4) s).bind (fun r => .ok (r.1, true))
    | .fault r => .fault r
    | .refused r => .refused r

/-- The link register and the new context of exception `e` (R430 parts 2 and 3): Handler mode on MSP, `e` active and no
longer pending, awake. -/
def State.enterHandler (s : State) (e : Nat) (link : Word) : State :=
  { s with
    lr := link
    ipsr := BitVec.ofNat 6 e
    spsel := false
    nvic := { s.nvic with active := setBit s.nvic.active e true, pending := setBit s.nvic.pending e false }
    sleep := .awake }

/-- The address of the vector of exception `e` (R410). -/
def vectorAddress (e : Nat) : Word := BitVec.ofNat 32 (4 * e)

/-- The context of exception `e` and its vector fetch (R430 parts 2 to 4); a hard fault is a vector that cannot be read
(R437). -/
def State.vectorTo (s : State) (e : Nat) (link : Word) : Access State :=
  match s.loadWord (vectorAddress e) with
  | .ok (v, t) => .ok ((t.enterHandler e link).interworkTo v)
  | .hardFault _ => .hardFault .busErrorVector
  | .fault r => .fault r
  | .refused r => .refused r

/-- `ExceptionEntry(e, ret)` from state `s` (R430), ONE operation for every exception. When a stacking write or the
vector read fails (R437, D32), the entry is replaced by an entry to HardFault with the frame already pushed and `e`
still pending, or by lockup of `frozen` when `e` is HardFault or the priority is -1 or higher already. -/
def exceptionEntry (frozen : State) (e : Nat) (ret : Word) (s : State) : Result :=
  let link := s.excReturn
  let failed (t : State) : Result :=
    if e = 3 || decide (s.executionPriority ≤ -1) then .next (frozen.lockedUp t)
    else
      match t.vectorTo 3 link with
      | .ok u => .next u
      | .hardFault _ => .next (frozen.lockedUp t)
      | .fault r => .fault r
      | .refused r => .refused r
  match State.stackWords (s.frameWords ret) s.framePointer (s.setSp s.framePointer) with
  | .ok (t, lost) =>
    if lost then failed t
    else
      match t.vectorTo e link with
      | .ok u => .next u
      | .hardFault _ => failed t
      | .fault r => .fault r
      | .refused r => .refused r
  | .hardFault _ => .next (frozen.lockedUp s)
  | .fault r => .fault r
  | .refused r => .refused r

/-- `raise HardFault(cause)` in state `s`, by an instruction that began in state `frozen` (R428, R445): lockup at
priority -1 or higher, else HardFault becomes pending and is entered with the instruction's own address as the return
address. The hardware records no cause (R10). -/
def raiseHardFault (_cause : FaultCause) (frozen s : State) : Result :=
  if s.executionPriority ≤ -1 then .next (frozen.lockedUp s)
  else exceptionEntry frozen 3 frozen.pc (s.setPending 3 true)

/-- `raise SVCall` by the SVC in state `s` (44_misc.md R370): the return address is the instruction after it. -/
def raiseSvCall (s : State) : Result := exceptionEntry s 11 (s.pc + 2) (s.setPending 11 true)

/-- Ends an instruction that began in state `s` with an access: a failed access raises HardFault and nothing that the
instruction does after it happens (R9, D11). -/
def Access.conclude {α : Type} (x : Access α) (s : State) (k : α → Result) : Result :=
  match x with
  | .ok a => k a
  | .hardFault c => raiseHardFault c s s
  | .fault r => .fault r
  | .refused r => .refused r

/-! ## Returning from an exception (R440, R441, R483) -/

/-- Whether a word has the form of an EXC_RETURN value: bits [31:4] are 0xFFFFFFF (R440). -/
def isExcReturn (v : Word) : Bool := v.extractLsb' 4 28 == 0xFFFFFFF#28

/-- What an EXC_RETURN value selects: whether the frame is on PSP, and whether the return is to Thread mode (R441). -/
structure ReturnKind where
  fromProcess : Bool
  toThread : Bool
  deriving DecidableEq, Repr

/-- The three legal EXC_RETURN values (R441); only bits [3:0] select. -/
def returnKindOf (v : Word) : Option ReturnKind :=
  if v.extractLsb' 0 4 = 0b0001#4 then some { fromProcess := false, toThread := false }
  else if v.extractLsb' 0 4 = 0b1001#4 then some { fromProcess := false, toThread := true }
  else if v.extractLsb' 0 4 = 0b1101#4 then some { fromProcess := true, toThread := true }
  else none

/-- The words of a stack frame. -/
structure Frame where
  r0 : Word
  r1 : Word
  r2 : Word
  r3 : Word
  r12 : Word
  lr : Word
  ra : Word
  psr : Word
  deriving DecidableEq, Repr

/-- Unstacks the eight words of the frame at `fp` (R440). -/
def State.unstack (s : State) (fp : Word) : Access (Frame × State) :=
  (s.loadWord fp).bind fun (r0, s) =>
  (s.loadWord (fp + 0x04)).bind fun (r1, s) =>
  (s.loadWord (fp + 0x08)).bind fun (r2, s) =>
  (s.loadWord (fp + 0x0C)).bind fun (r3, s) =>
  (s.loadWord (fp + 0x10)).bind fun (r12, s) =>
  (s.loadWord (fp + 0x14)).bind fun (lr, s) =>
  (s.loadWord (fp + 0x18)).bind fun (ra, s) =>
  (s.loadWord (fp + 0x1C)).bind fun (psr, s) =>
  .ok ({ r0, r1, r2, r3, r12, lr, ra, psr }, s)

/-- Whether an access ends in a bus error or another HardFault. -/
def Access.isHardFault {α : Type} : Access α → Bool
  | .hardFault _ => true
  | .ok _ | .fault _ | .refused _ => false

/-- The stack pointer after the return: `(frameptr + 0x20) OR (psr[9] << 2)` (R440). -/
def returnedSp (fp psr : Word) : Word := (fp + 0x20) ||| (psr &&& 0x200) >>> 7

/-- Writes the unstacked frame into the registers and selects the stack and the mode (R440). -/
def State.restore (s : State) (k : ReturnKind) (fp : Word) (f : Frame) : State :=
  let t := { s with
    regs := ((((s.regs.set 0 f.r0).set 1 f.r1).set 2 f.r2).set 3 f.r3).set 12 f.r12
    lr := f.lr
    spsel := k.fromProcess
    apsr := Apsr.ofWord f.psr
    thumb := f.psr.getLsbD 24
    ipsr := f.psr.extractLsb' 0 6
    pc := clearBit0 f.ra }
  if k.fromProcess then t.setProcessSp (returnedSp fp f.psr) else t.setMainSp (returnedSp fp f.psr)

/-- Sleep-on-exit (R483): a return to Thread mode with SCR.SLEEPONEXIT set sleeps, unless an exception that would end the
sleep is pending already (R442, R480). -/
def State.sleepOnExit (s : State) (k : ReturnKind) : State :=
  if k.toThread && s.scb.sleepOnExit && !s.wakeCondition then s.fallAsleep .interrupt else s

/-- `active[IPSR] <- 0`, where the handler that returns ends (R440). -/
def State.endException (s : State) : State :=
  { s with nvic := { s.nvic with active := setBit s.nvic.active s.ipsr.toNat false } }

/-- Whether a return of kind `k` agrees with the active exceptions (R440, D19): the returning one is active, none other is
for a return to Thread mode, some other is for a return to Handler mode. -/
def State.returnConsistent (s : State) (k : ReturnKind) : Bool :=
  s.isActive s.ipsr.toNat && (k.toThread == (s.endException.nvic.active == 0))

/-- The address of the frame to unstack, on the stack the EXC_RETURN value selects (R441). -/
def State.returnFrame (s : State) (k : ReturnKind) : Word := if k.fromProcess then s.processSp else s.mainSp

/-- `ExceptionReturn(v)` in state `s`, by an instruction that began in state `frozen` (R440). A bus error when unstacking
the PSR from MSP is lockup in every case (R445); another failed read is a HardFault (R437, D32). -/
def exceptionReturn (frozen s : State) (v : Word) : Result :=
  match returnKindOf v with
  | none => .fault .reservedExcReturn
  | some k =>
    if !s.returnConsistent k then .fault .inconsistentReturn
    else
      match s.endException.unstack (s.returnFrame k) with
      | .ok (f, t) =>
        let u := t.restore k (s.returnFrame k) f
        if k.toThread == u.handlerMode then .fault .inconsistentReturn else .next (u.sleepOnExit k)
      | .hardFault c =>
        if !k.fromProcess && (s.endException.loadWord (s.returnFrame k + 0x1C)).isHardFault then .next (frozen.lockedUp s)
        else raiseHardFault c frozen s.endException
      | .fault r => .fault r
      | .refused r => .refused r

/-- `BXWritePC(v)` and `LoadWritePC(v)` in state `s` (R11): an exception return in Handler mode for an EXC_RETURN value,
else a branch that loads EPSR.T from bit [0]. -/
def bxWritePc (frozen s : State) (v : Word) : Result :=
  if s.handlerMode && isExcReturn v then exceptionReturn frozen s v else .next (s.interworkTo v)

/-! ## Multiple transfers (R249 to R252, R140) -/

/-- Loads the registers of a list, the lowest-numbered from the lowest address. -/
def State.loadRegisters : List LowReg → Word → State → Access State
  | [], _, s => .ok s
  | r :: rs, a, s => (s.loadWord a).bind fun (v, t) => State.loadRegisters rs (a + 4) (t.writeLow r v)

/-- Stores words at rising addresses. -/
def State.storeWords : List Word → Word → State → Access State
  | [], _, s => .ok s
  | v :: vs, a, s => (s.storeWord a v).bind fun t => State.storeWords vs (a + 4) t

/-- The registers of a load list after a bus error somewhere in the transfer: each holds its old or its loaded value, an
open choice for each (D9, U13); `keep` is a register that keeps its old value. -/
def State.loadSomeRegisters (keep : Option LowReg) : List LowReg → Word → State → Access State
  | [], _, s => .ok s
  | r :: rs, a, s =>
    let (b, t) := s.drawBit
    match t.loadWord a with
    | .ok (v, u) => State.loadSomeRegisters keep rs (a + 4) (if b && keep != some r then u.writeLow r v else t)
    | .hardFault _ => State.loadSomeRegisters keep rs (a + 4) t
    | .fault x => if b then .fault x else State.loadSomeRegisters keep rs (a + 4) t
    | .refused x => if b then .refused x else State.loadSomeRegisters keep rs (a + 4) t

/-- The words of a store range after a bus error somewhere in the transfer: each location holds its old or its new
value, an open choice for each (D9, U13). -/
def State.storeSomeWords : List Word → Word → State → Access State
  | [], _, s => .ok s
  | v :: vs, a, s =>
    let (b, t) := s.drawBit
    match t.storeWord a v with
    | .ok u => State.storeSomeWords vs (a + 4) (if b then u else t)
    | .hardFault _ => State.storeSomeWords vs (a + 4) t
    | .fault x => if b then .fault x else State.storeSomeWords vs (a + 4) t
    | .refused x => if b then .refused x else State.storeSomeWords vs (a + 4) t

/-- Ends a multiple transfer of the instruction in state `s`: `whole` is the transfer, `part` what a transfer that a bus
error stopped leaves. A misaligned base faults before any transfer (R136). -/
def concludeTransfer (s : State) (base : Word) (whole : Access State) (part : Access State) (k : State → Result) :
    Result :=
  match whole with
  | .ok t => k t
  | .hardFault c => if aligned base 4 then part.conclude s (fun t => raiseHardFault c s t) else raiseHardFault c s s
  | .fault r => .fault r
  | .refused r => .refused r

end Sys2Proof.Machine
end

