-- ==== Sys2Proof/Machine/Branch.lean ====
section
/-!
DEFINITION. The branch and control instructions (43_branch.md R330 to R337).
-/

namespace Sys2Proof.Machine

/-- B label (R330). -/
def execB (imm11 : BitVec 11) (s : State) : Result := .next (s.branchTo (s.branchTarget imm11))

/-- B<cond> label (R331). -/
def execBCond (cond : Cond) (imm8 : BitVec 8) (s : State) : Result :=
  if conditionPassed cond s.apsr then .next (s.branchTo (s.branchTarget imm8)) else .next (s.advance 2)

/-- BL label (R333). -/
def execBl (off24 : BitVec 24) (s : State) : Result :=
  .next (({ s with lr := (s.pc + 4) ||| 1 }).branchTo (s.branchTarget off24))

/-- BX Rm (R334); SP and PC are UNPREDICTABLE (R336, U8). -/
def execBx (rm : Reg) (s : State) : Result :=
  if rm = 13 ∨ rm = 15 then .refused .unpredictable else bxWritePc s s (s.readReg rm)

/-- BLX Rm (R335): the target is read before LR is written, and it is never an exception return. -/
def execBlx (rm : Reg) (s : State) : Result :=
  if rm = 13 ∨ rm = 15 then .refused .unpredictable
  else .next (({ s with lr := (s.pc + 2) ||| 1 }).interworkTo (s.readReg rm))

end Sys2Proof.Machine
end

