-- ==== Sys2Proof/Machine/DataProcessingA.lean ====
section
/-!
DEFINITION. Data processing, part A (41_data_processing_a.md R258 to R288): addition, subtraction, bitwise logic and
shifts. No instruction of this family accesses memory or raises an exception.
-/

namespace Sys2Proof.Machine

/-! ## Shared forms -/

/-- `(r, c, v) <- AddWithCarry(a, b, cin); x[d] <- r; SetNZCV(r, c, v)`. -/
def addInto (rd : LowReg) (a b : Word) (cin : Bool) (s : State) : Result :=
  let r := addWithCarry a b cin
  .next (((s.writeLow rd r.result).setNZCV r).advance 2)

/-- `x[d] <- r; SetNZ(r)`. -/
def logicInto (rd : LowReg) (r : Word) (s : State) : Result := .next (((s.writeLow rd r).setNZ r).advance 2)

/-- `(r, c) <- shift(v, n); x[d] <- r; SetNZ(r); APSR.C <- c`, where a length of 0 moves `v` and leaves C (R280). -/
def shiftInto (shift : Word → Nat → ShiftResult) (rd : LowReg) (v : Word) (n : Nat) (s : State) : Result :=
  if n = 0 then logicInto rd v s
  else
    let r := shift v n
    .next (((s.writeLow rd r.result).setNZC r).advance 2)

/-! ## ADC, ADD, RSB, SBC and SUB -/

/-- ADCS Rdn, Rm (R260). -/
def execAdcs (rdn rm : LowReg) (s : State) : Result := addInto rdn (s.readLow rdn) (s.readLow rm) s.apsr.c s

/-- ADDS Rd, Rn, Rm (R261). -/
def execAddsReg (rd rn rm : LowReg) (s : State) : Result := addInto rd (s.readLow rn) (s.readLow rm) false s

/-- ADD Rdn, Rm without flags, any register (R262); with PC as destination a branch. -/
def execAddHigh (rdn rm : Reg) (s : State) : Result :=
  let r := s.readReg rdn + s.readReg rm
  if rdn = 15 ∧ rm = 15 then .refused .unpredictable
  else if rdn = 15 then .next (s.branchTo r)
  else .next ((s.writeReg rdn r).advance 2)

/-- ADDS Rd, Rn, #imm3 (R263). -/
def execAddsImm3 (rd rn : LowReg) (imm3 : BitVec 3) (s : State) : Result :=
  addInto rd (s.readLow rn) (immediate imm3 1) false s

/-- ADDS Rdn, #imm8 (R264). -/
def execAddsImm8 (rdn : LowReg) (imm8 : BitVec 8) (s : State) : Result :=
  addInto rdn (s.readLow rdn) (immediate imm8 1) false s

/-- ADD Rd, SP, #imm (R265). -/
def execAddRdSp (rd : LowReg) (imm8 : BitVec 8) (s : State) : Result :=
  .next ((s.writeLow rd (s.spAddress imm8)).advance 2)

/-- ADD SP, SP, #imm (R266). -/
def execAddSp (imm7 : BitVec 7) (s : State) : Result := .next ((s.setSp (s.sp + immediate imm7 4)).advance 2)

/-- RSBS Rd, Rn, #0 (R268). -/
def execRsbs (rd rn : LowReg) (s : State) : Result := addInto rd (~~~s.readLow rn) 0 true s

/-- SBCS Rdn, Rm (R269). -/
def execSbcs (rdn rm : LowReg) (s : State) : Result := addInto rdn (s.readLow rdn) (~~~s.readLow rm) s.apsr.c s

/-- SUBS Rd, Rn, Rm (R270). -/
def execSubsReg (rd rn rm : LowReg) (s : State) : Result := addInto rd (s.readLow rn) (~~~s.readLow rm) true s

/-- SUBS Rd, Rn, #imm3 (R271). -/
def execSubsImm3 (rd rn : LowReg) (imm3 : BitVec 3) (s : State) : Result :=
  addInto rd (s.readLow rn) (~~~immediate imm3 1) true s

/-- SUBS Rdn, #imm8 (R272). -/
def execSubsImm8 (rdn : LowReg) (imm8 : BitVec 8) (s : State) : Result :=
  addInto rdn (s.readLow rdn) (~~~immediate imm8 1) true s

/-- SUB SP, SP, #imm (R273). -/
def execSubSp (imm7 : BitVec 7) (s : State) : Result := .next ((s.setSp (s.sp - immediate imm7 4)).advance 2)

/-! ## AND, ORR, EOR and BIC -/

/-- ANDS Rdn, Rm (R275). -/
def execAnds (rdn rm : LowReg) (s : State) : Result := logicInto rdn (s.readLow rdn &&& s.readLow rm) s

/-- ORRS Rdn, Rm (R276). -/
def execOrrs (rdn rm : LowReg) (s : State) : Result := logicInto rdn (s.readLow rdn ||| s.readLow rm) s

/-- EORS Rdn, Rm (R277). -/
def execEors (rdn rm : LowReg) (s : State) : Result := logicInto rdn (s.readLow rdn ^^^ s.readLow rm) s

/-- BICS Rdn, Rm (R278). -/
def execBics (rdn rm : LowReg) (s : State) : Result := logicInto rdn (s.readLow rdn &&& ~~~s.readLow rm) s

/-! ## ASR, LSL, LSR and ROR -/

/-- ASRS Rd, Rm, #imm (R282). -/
def execAsrsImm (rd rm : LowReg) (imm5 : BitVec 5) (s : State) : Result :=
  shiftInto asrC rd (s.readLow rm) (rightShiftLength imm5) s

/-- ASRS Rdn, Rs (R283). -/
def execAsrsReg (rdn rs : LowReg) (s : State) : Result := shiftInto asrC rdn (s.readLow rdn) (s.shiftLength rs) s

/-- LSLS Rd, Rm, #imm (R284). -/
def execLslsImm (rd rm : LowReg) (imm5 : BitVec 5) (s : State) : Result :=
  shiftInto lslC rd (s.readLow rm) imm5.toNat s

/-- LSLS Rdn, Rs (R285). -/
def execLslsReg (rdn rs : LowReg) (s : State) : Result := shiftInto lslC rdn (s.readLow rdn) (s.shiftLength rs) s

/-- LSRS Rd, Rm, #imm (R286). -/
def execLsrsImm (rd rm : LowReg) (imm5 : BitVec 5) (s : State) : Result :=
  shiftInto lsrC rd (s.readLow rm) (rightShiftLength imm5) s

/-- LSRS Rdn, Rs (R287). -/
def execLsrsReg (rdn rs : LowReg) (s : State) : Result := shiftInto lsrC rdn (s.readLow rdn) (s.shiftLength rs) s

/-- RORS Rdn, Rs (R288). -/
def execRors (rdn rs : LowReg) (s : State) : Result := shiftInto rorC rdn (s.readLow rdn) (s.shiftLength rs) s

end Sys2Proof.Machine
end

