-- ==== Sys2Proof/Machine/DataProcessingB.lean ====
section
/-!
DEFINITION. Data processing, part B (42_data_processing_b.md R302 to R322): comparison, move, multiplication, byte
reversal, extension and TST. No instruction of this family accesses memory or raises an exception.
-/

namespace Sys2Proof.Machine

/-! ## CMP and CMN -/

/-- `(r, c, v) <- AddWithCarry(a, b, cin); SetNZCV(r, c, v)`: the result is discarded. -/
def compare (a b : Word) (cin : Bool) (s : State) : Result := .next ((s.setNZCV (addWithCarry a b cin)).advance 2)

/-- CMN Rn, Rm (R302). -/
def execCmn (rn rm : LowReg) (s : State) : Result := compare (s.readLow rn) (s.readLow rm) false s

/-- CMP Rn, #imm8 (R303). -/
def execCmpImm (rn : LowReg) (imm8 : BitVec 8) (s : State) : Result :=
  compare (s.readLow rn) (~~~immediate imm8 1) true s

/-- CMP Rn, Rm with two low registers (R304). -/
def execCmpLow (rn rm : LowReg) (s : State) : Result := compare (s.readLow rn) (~~~s.readLow rm) true s

/-- CMP Rn, Rm with a high register (R304); two low registers or R15 are UNPREDICTABLE here (30_encoding.md R207, U7). -/
def execCmpHigh (rn rm : Reg) (s : State) : Result :=
  if (rn.val < 8 ∧ rm.val < 8) ∨ rn = 15 ∨ rm = 15 then .refused .unpredictable
  else compare (s.readReg rn) (~~~s.readReg rm) true s

/-! ## MOV and MVN -/

/-- MOV Rd, Rm without flags, any register (R306); with PC as destination a branch. -/
def execMovHigh (rd rm : Reg) (s : State) : Result :=
  if rd = 15 then .next (s.branchTo (s.readReg rm)) else .next ((s.writeReg rd (s.readReg rm)).advance 2)

/-- MOVS Rd, Rm (R307). -/
def execMovsReg (rd rm : LowReg) (s : State) : Result := logicInto rd (s.readLow rm) s

/-- MOVS Rd, #imm8 (R308). -/
def execMovsImm (rd : LowReg) (imm8 : BitVec 8) (s : State) : Result := logicInto rd (immediate imm8 1) s

/-- MVNS Rd, Rm (R309). -/
def execMvns (rd rm : LowReg) (s : State) : Result := logicInto rd (~~~s.readLow rm) s

/-! ## MULS -/

/-- MULS Rdm, Rn, Rdm (R312). -/
def execMuls (rdm rn : LowReg) (s : State) : Result := logicInto rdm (s.readLow rn * s.readLow rdm) s

/-! ## REV, REV16, REVSH, SXT and UXT -/

/-- `x[d] <- v`, flags not changed. -/
def moveInto (rd : LowReg) (v : Word) (s : State) : Result := .next ((s.writeLow rd v).advance 2)

/-- The two bytes of a halfword exchanged. -/
def swapBytes (h : Halfword) : Halfword := h.extractLsb' 0 8 ++ h.extractLsb' 8 8

/-- REV Rd, Rm (R314). -/
def execRev (rd rm : LowReg) (s : State) : Result :=
  let v := s.readLow rm
  moveInto rd (v.extractLsb' 0 8 ++ v.extractLsb' 8 8 ++ v.extractLsb' 16 8 ++ v.extractLsb' 24 8) s

/-- REV16 Rd, Rm (R315). -/
def execRev16 (rd rm : LowReg) (s : State) : Result :=
  let v := s.readLow rm
  moveInto rd (swapBytes (v.extractLsb' 16 16) ++ swapBytes (v.extractLsb' 0 16)) s

/-- REVSH Rd, Rm (R316). -/
def execRevsh (rd rm : LowReg) (s : State) : Result :=
  moveInto rd ((swapBytes ((s.readLow rm).extractLsb' 0 16)).signExtend 32) s

/-- SXTB Rd, Rm (R318). -/
def execSxtb (rd rm : LowReg) (s : State) : Result := moveInto rd (((s.readLow rm).extractLsb' 0 8).signExtend 32) s

/-- SXTH Rd, Rm (R319). -/
def execSxth (rd rm : LowReg) (s : State) : Result := moveInto rd (((s.readLow rm).extractLsb' 0 16).signExtend 32) s

/-- UXTB Rd, Rm (R320). -/
def execUxtb (rd rm : LowReg) (s : State) : Result := moveInto rd (((s.readLow rm).extractLsb' 0 8).setWidth 32) s

/-- UXTH Rd, Rm (R321). -/
def execUxth (rd rm : LowReg) (s : State) : Result := moveInto rd (((s.readLow rm).extractLsb' 0 16).setWidth 32) s

/-! ## TST -/

/-- TST Rn, Rm (R322). -/
def execTst (rn rm : LowReg) (s : State) : Result := .next ((s.setNZ (s.readLow rn &&& s.readLow rm)).advance 2)

end Sys2Proof.Machine
end

