-- ==== Sys2Proof/Machine/MemoryAccess.lean ====
section
/-!
DEFINITION. The memory access instructions (40_memory_access.md R230 to R252): ADR, LDR, STR, LDM, STM, PUSH, POP.
-/

namespace Sys2Proof.Machine

/-! ## Shared forms -/

/-- A word load into `rt` (R232, R233, R240, R248). -/
def loadWordInto (rt : LowReg) (a : Word) (s : State) : Result :=
  (s.loadWord a).conclude s fun (v, t) => .next ((t.writeLow rt v).advance 2)

/-- A halfword load into `rt`, widened by `extend` (R237, R242, R244). -/
def loadHalfwordInto (extend : Halfword → Word) (rt : LowReg) (a : Word) (s : State) : Result :=
  (s.loadHalfword a).conclude s fun v => .next ((s.writeLow rt (extend v)).advance 2)

/-- A byte load into `rt`, widened by `extend` (R236, R241, R243). -/
def loadByteInto (extend : Byte → Word) (rt : LowReg) (a : Word) (s : State) : Result :=
  (s.loadByte a).conclude s fun v => .next ((s.writeLow rt (extend v)).advance 2)

/-- A word store of `rt` (R234, R235, R245). -/
def storeWordFrom (rt : LowReg) (a : Word) (s : State) : Result :=
  (s.storeWord a (s.readLow rt)).conclude s fun t => .next (t.advance 2)

/-- A halfword store of the low half of `rt` (R239, R247). -/
def storeHalfwordFrom (rt : LowReg) (a : Word) (s : State) : Result :=
  (s.storeHalfword a ((s.readLow rt).extractLsb' 0 16)).conclude s fun t => .next (t.advance 2)

/-- A byte store of the low byte of `rt` (R238, R246). -/
def storeByteFrom (rt : LowReg) (a : Word) (s : State) : Result :=
  (s.storeByte a ((s.readLow rt).extractLsb' 0 8)).conclude s fun t => .next (t.advance 2)

/-! ## ADR and the PC-relative load -/

/-- ADR Rd, label (R231); also ADD Rd, PC, #imm (R267). -/
def execAdr (rd : LowReg) (imm8 : BitVec 8) (s : State) : Result :=
  .next ((s.writeLow rd (s.pcAddress imm8)).advance 2)

/-- LDR Rt, label (R248). -/
def execLdrLit (rt : LowReg) (imm8 : BitVec 8) (s : State) : Result := loadWordInto rt (s.pcAddress imm8) s

/-! ## Immediate offset -/

/-- LDR Rt, [Rn, #imm] (R232). -/
def execLdrImm (rt rn : LowReg) (imm5 : BitVec 5) (s : State) : Result := loadWordInto rt (s.immAddress rn imm5 4) s

/-- LDR Rt, [SP, #imm] (R233). -/
def execLdrSp (rt : LowReg) (imm8 : BitVec 8) (s : State) : Result := loadWordInto rt (s.spAddress imm8) s

/-- STR Rt, [Rn, #imm] (R234). -/
def execStrImm (rt rn : LowReg) (imm5 : BitVec 5) (s : State) : Result := storeWordFrom rt (s.immAddress rn imm5 4) s

/-- STR Rt, [SP, #imm] (R235). -/
def execStrSp (rt : LowReg) (imm8 : BitVec 8) (s : State) : Result := storeWordFrom rt (s.spAddress imm8) s

/-- LDRB Rt, [Rn, #imm] (R236). -/
def execLdrbImm (rt rn : LowReg) (imm5 : BitVec 5) (s : State) : Result :=
  loadByteInto (fun v => v.setWidth 32) rt (s.immAddress rn imm5 1) s

/-- LDRH Rt, [Rn, #imm] (R237). -/
def execLdrhImm (rt rn : LowReg) (imm5 : BitVec 5) (s : State) : Result :=
  loadHalfwordInto (fun v => v.setWidth 32) rt (s.immAddress rn imm5 2) s

/-- STRB Rt, [Rn, #imm] (R238). -/
def execStrbImm (rt rn : LowReg) (imm5 : BitVec 5) (s : State) : Result := storeByteFrom rt (s.immAddress rn imm5 1) s

/-- STRH Rt, [Rn, #imm] (R239). -/
def execStrhImm (rt rn : LowReg) (imm5 : BitVec 5) (s : State) : Result :=
  storeHalfwordFrom rt (s.immAddress rn imm5 2) s

/-! ## Register offset -/

/-- LDR Rt, [Rn, Rm] (R240). -/
def execLdrReg (rt rn rm : LowReg) (s : State) : Result := loadWordInto rt (s.regAddress rn rm) s

/-- LDRB Rt, [Rn, Rm] (R241). -/
def execLdrbReg (rt rn rm : LowReg) (s : State) : Result :=
  loadByteInto (fun v => v.setWidth 32) rt (s.regAddress rn rm) s

/-- LDRH Rt, [Rn, Rm] (R242). -/
def execLdrhReg (rt rn rm : LowReg) (s : State) : Result :=
  loadHalfwordInto (fun v => v.setWidth 32) rt (s.regAddress rn rm) s

/-- LDRSB Rt, [Rn, Rm] (R243). -/
def execLdrsbReg (rt rn rm : LowReg) (s : State) : Result :=
  loadByteInto (fun v => v.signExtend 32) rt (s.regAddress rn rm) s

/-- LDRSH Rt, [Rn, Rm] (R244). -/
def execLdrshReg (rt rn rm : LowReg) (s : State) : Result :=
  loadHalfwordInto (fun v => v.signExtend 32) rt (s.regAddress rn rm) s

/-- STR Rt, [Rn, Rm] (R245). -/
def execStrReg (rt rn rm : LowReg) (s : State) : Result := storeWordFrom rt (s.regAddress rn rm) s

/-- STRB Rt, [Rn, Rm] (R246). -/
def execStrbReg (rt rn rm : LowReg) (s : State) : Result := storeByteFrom rt (s.regAddress rn rm) s

/-- STRH Rt, [Rn, Rm] (R247). -/
def execStrhReg (rt rn rm : LowReg) (s : State) : Result := storeHalfwordFrom rt (s.regAddress rn rm) s

/-! ## Multiple transfers -/

/-- LDM Rn, reglist (R249): the base is written back exactly when it is not in the list; a bus error leaves it. -/
def execLdm (rn : LowReg) (list : BitVec 8) (s : State) : Result :=
  let rs := registersOf list
  let base := s.readLow rn
  if rs.isEmpty then .refused .unpredictable
  else
    concludeTransfer s base (State.loadRegisters rs base s) (State.loadSomeRegisters (some rn) rs base s) fun t =>
      let u := if list.getLsbD rn.val then t else t.writeLow rn (base + wordsSize rs.length)
      .next (u.advance 2)

/-- The words STM stores (R250): registers before write-back; a base that is in the list but not its lowest register
stores an open word (U1). -/
def State.stmWords (s : State) (rn : LowReg) (rs : List LowReg) : List Word × State :=
  if rs.contains rn && rs.head? != some rn then
    let (w, t) := s.drawWord
    (rs.map (fun r => if r = rn then w else s.readLow r), t)
  else (rs.map s.readLow, s)

/-- STM Rn!, reglist (R250): the base is written back always; a bus error leaves it. -/
def execStm (rn : LowReg) (list : BitVec 8) (s : State) : Result :=
  let rs := registersOf list
  let base := s.readLow rn
  if rs.isEmpty then .refused .unpredictable
  else
    let (ws, t) := s.stmWords rn rs
    concludeTransfer s base (State.storeWords ws base t) (State.storeSomeWords ws base t) fun u =>
      .next ((u.writeLow rn (base + wordsSize rs.length)).advance 2)

/-- The words PUSH stores, lowest address first: the low registers of the list, then LR (R251). -/
def State.pushWords (s : State) (lr : Bool) (list : BitVec 8) : List Word :=
  (registersOf list).map s.readLow ++ if lr then [s.lr] else []

/-- PUSH reglist (R251). -/
def execPush (lr : Bool) (list : BitVec 8) (s : State) : Result :=
  let ws := s.pushWords lr list
  let base := s.sp - wordsSize ws.length
  if ws.isEmpty then .refused .unpredictable
  else
    concludeTransfer s base (State.storeWords ws base s) (State.storeSomeWords ws base s) fun t =>
      .next ((t.setSp base).advance 2)

/-- POP reglist (R252): with PC in the list the branch or the exception return comes after SP has been advanced. -/
def execPop (pc : Bool) (list : BitVec 8) (s : State) : Result :=
  let rs := registersOf list
  let base := s.sp
  let pcSlot := base + wordsSize rs.length
  let part := State.loadSomeRegisters none rs base s
  if pc then
    concludeTransfer s base (State.loadRegisters rs base s) part fun t =>
      match t.loadWord pcSlot with
      | .ok (target, u) => bxWritePc s (u.setSp (pcSlot + 4)) target
      | .hardFault c => part.conclude s (fun t => raiseHardFault c s t)
      | .fault r => .fault r
      | .refused r => .refused r
  else if rs.isEmpty then .refused .unpredictable
  else
    concludeTransfer s base (State.loadRegisters rs base s) part fun t => .next ((t.setSp pcSlot).advance 2)

end Sys2Proof.Machine
end

