-- ==== Sys2Proof/Machine/Misc.lean ====
section
/-!
DEFINITION. The miscellaneous instructions (44_misc.md R355 to R377): BKPT, CPS, the barriers, MRS, MSR, the hints, SVC
and UDF. Every one executes alike in both modes: there is one privilege level (60_exceptions.md R401).
-/

namespace Sys2Proof.Machine

/-- BKPT #imm8 (R355): there is no debugger (D3); the processor ignores the immediate. -/
def execBkpt (_imm8 : BitVec 8) (s : State) : Result := raiseHardFault .breakpoint s s

/-- CPSIE i (R356). -/
def execCpsie (s : State) : Result := .next (({ s with primask := false }).advance 2)

/-- CPSID i (R356). -/
def execCpsid (s : State) : Result := .next (({ s with primask := true }).advance 2)

/-- DMB (R360): one core sees its accesses in program order already. Every option value is the full barrier
(30_encoding.md R199). -/
def execDmb (_option : BitVec 4) (s : State) : Result := .next (s.advance 4)

/-- DSB (R361): a store has completed when its instruction ends. -/
def execDsb (_option : BitVec 4) (s : State) : Result := .next (s.advance 4)

/-- ISB (R362): the model fetches each instruction when it executes it. -/
def execIsb (_option : BitVec 4) (s : State) : Result := .next (s.advance 4)

/-- MRS Rd, spec_reg (R364); SP and PC are UNPREDICTABLE (U9). -/
def execMrs (rd : Reg) (spec : SpecReg) (s : State) : Result :=
  if rd = 13 ∨ rd = 15 then .refused .unpredictable else .next ((s.writeReg rd (s.readSpecial spec)).advance 4)

/-- MSR spec_reg, Rn (R366); SP and PC are UNPREDICTABLE (U9). -/
def execMsr (spec : SpecReg) (rn : Reg) (s : State) : Result :=
  if rn = 13 ∨ rn = 15 then .refused .unpredictable else .next ((s.writeSpecial spec (s.readReg rn)).advance 4)

/-- NOP (R368). -/
def execNop (s : State) : Result := .next (s.advance 2)

/-- YIELD (R376): it executes as NOP. -/
def execYield (s : State) : Result := .next (s.advance 2)

/-- SEV (R369): the local event register; there is no other processor (D2). -/
def execSev (s : State) : Result := .next (({ s with event := true }).advance 2)

/-- WFE (R372): which of the three readings of D4 holds is open (notes/assumptions/2.md). In the generic one the event
register, when set, is cleared and WFE completes; else the processor sleeps until R482 wakes it. -/
def execWfe (s : State) : Result :=
  let (reading, t) := s.drawWfeReading
  match reading with
  | .nop => .next (t.advance 2)
  | .generic =>
    if t.event then .next (({ t with event := false }).advance 2) else .next ((t.fallAsleep .event).advance 2)
  | .fault => raiseHardFault .undefined s t

/-- WFI (R373): it completes at once when a wake-up condition holds already, else the processor sleeps (R480). -/
def execWfi (s : State) : Result :=
  if s.wakeCondition then .next (s.advance 2) else .next ((s.fallAsleep .interrupt).advance 2)

/-- SVC #imm8 (R370): HardFault at a priority equal to or higher than SVCall, else SVCall; the processor ignores the
immediate. -/
def execSvc (_imm8 : BitVec 8) (s : State) : Result :=
  if s.executionPriority ≤ s.priority 11 then raiseHardFault .svcPriority s s else raiseSvCall s

/-- UDF #imm8 (R377). -/
def execUdf (_imm8 : BitVec 8) (s : State) : Result := raiseHardFault .undefined s s

/-- UDF.W #imm16 (R377). -/
def execUdfW (_imm16 : BitVec 16) (s : State) : Result := raiseHardFault .undefined s s

end Sys2Proof.Machine
end

