-- ==== Sys2Proof/WellFormed.lean ====
section
/-!
DEFINITION. Which operand combinations an encoding admits with a defined meaning: the rest of an instruction's operand
restrictions beyond the widths of its fields (30_encoding.md R207, 93_implementation_defined.md U4, U6 to U9).
-/

namespace Sys2Proof

/-- An instruction the spec defines. The refused combinations are those of R207:
an empty register list (U4), ADD PC, PC (U6), the high CMP with two low registers or with R15 (U7), BX and BLX of SP
or PC (U8), MRS and MSR of SP or PC (U9). `lslsImm` with a zero immediate is excluded because that word is
MOVS Rd, Rm (R201). STM with its base in the list is well formed: R207 keeps its meaning, with one open word (U1). -/
def Instr.wellFormed : Instr → Bool
  | .lslsImm _ _ imm5 => imm5 != 0
  | .addHigh rdn rm => !(rdn == 15 && rm == 15)
  | .cmpHigh rn rm => !(rn.val < 8 && rm.val < 8) && rn != 15 && rm != 15
  | .bx rm | .blx rm => rm != 13 && rm != 15
  | .push lr list => lr || list != 0
  | .pop pc list => pc || list != 0
  | .stm _ list | .ldm _ list => list != 0
  | .msr _ rn => rn != 13 && rn != 15
  | .mrs rd _ => rd != 13 && rd != 15
  | .movsReg _ _ | .lsrsImm _ _ _ | .asrsImm _ _ _ | .addsReg _ _ _ | .subsReg _ _ _ | .addsImm3 _ _ _
  | .subsImm3 _ _ _ | .movsImm _ _ | .cmpImm _ _ | .addsImm8 _ _ | .subsImm8 _ _ | .ands _ _ | .eors _ _
  | .lslsReg _ _ | .lsrsReg _ _ | .asrsReg _ _ | .adcs _ _ | .sbcs _ _ | .rors _ _ | .tst _ _ | .rsbs _ _
  | .cmpLow _ _ | .cmn _ _ | .orrs _ _ | .muls _ _ | .bics _ _ | .mvns _ _ | .movHigh _ _ | .ldrLit _ _
  | .strReg _ _ _ | .strhReg _ _ _ | .strbReg _ _ _ | .ldrsbReg _ _ _ | .ldrReg _ _ _ | .ldrhReg _ _ _
  | .ldrbReg _ _ _ | .ldrshReg _ _ _ | .strImm _ _ _ | .ldrImm _ _ _ | .strbImm _ _ _ | .ldrbImm _ _ _
  | .strhImm _ _ _ | .ldrhImm _ _ _ | .strSp _ _ | .ldrSp _ _ | .adr _ _ | .addRdSp _ _ | .addSp _ | .subSp _
  | .sxth _ _ | .sxtb _ _ | .uxth _ _ | .uxtb _ _ | .cpsie | .cpsid | .rev _ _ | .rev16 _ _ | .revsh _ _
  | .bkpt _ | .nop | .yield | .wfe | .wfi | .sev | .udf _ | .svc _ | .bCond _ _ | .b _ | .bl _ | .dsb _ | .dmb _
  | .isb _ | .udfW _ => true

end Sys2Proof
end

