-- ==== Sys2Proof/Decode.lean ====
section
/-!
DEFINITION. Decoding, total on any bytes and rejecting by name, and after it the encoder. Both are written from the
encoding tables of 30_encoding.md (R181 to R208), whose bit patterns that file marks as the family's general
knowledge (R180, 92_eei_decisions.md D1; notes/assumptions/3.md).
-/

namespace Sys2Proof

/-! ## Why a bit pattern is no instruction -/

/-- Why the decoder gives no instruction. -/
inductive Reject where
  /-- There are too few bytes for the instruction that begins here. -/
  | truncated
  /-- No row of the opcode table matches (R205, R206): executing it is HardFault cause [7]. -/
  | undefined
  /-- A row matches, but a should-be bit or an operand combination is one the architecture leaves UNPREDICTABLE
  (R207): the step is refused. -/
  | unpredictable
  /-- An unallocated hint 0xBF50 to 0xBFF0 (R208): the step is refused. -/
  | unallocatedHint
  deriving DecidableEq, Repr

/-- What the decoder reads from one instruction's bits. -/
abbrev Decoded := Except Reject Instr

/-! ## Fields -/

/-- The 3-bit register field of a halfword whose lowest bit is bit `lo`. -/
def lowField (w : Halfword) (lo : Nat) : LowReg := (w.extractLsb' lo 3).toFin

/-- The 4-bit register number `D:Rd` of the high-register group: bit 7 above bits [2:0] (R188). -/
def splitReg (w : Halfword) : Reg := (w.extractLsb' 7 1 ++ w.extractLsb' 0 3).toFin

/-- The 4-bit register field whose lowest bit is bit `lo`. -/
def regField (w : Halfword) (lo : Nat) : Reg := (w.extractLsb' lo 4).toFin

/-- The condition of a B<cond> (R15): `none` for 1110 and 1111, which are UDF and SVC (R194). -/
def condOf (c : BitVec 4) : Option Cond :=
  match c.toNat with
  | 0 => some .eq | 1 => some .ne | 2 => some .cs | 3 => some .cc | 4 => some .mi | 5 => some .pl | 6 => some .vs
  | 7 => some .vc | 8 => some .hi | 9 => some .ls | 10 => some .ge | 11 => some .lt | 12 => some .gt | 13 => some .le
  | _ => none

/-- The special register of a SYSm field (R198): `none` for the reserved numbers. -/
def specRegOf (sysm : BitVec 8) : Option SpecReg :=
  match sysm.toNat with
  | 0 => some .apsr | 1 => some .iapsr | 2 => some .eapsr | 3 => some .psr | 5 => some .ipsr | 6 => some .epsr
  | 7 => some .iepsr | 8 => some .msp | 9 => some .psp | 16 => some .primask | 20 => some .control
  | _ => none

/-- An instruction if its operands are a defined combination, else the rejection of R207. -/
def defined (i : Instr) : Decoded := if i.wellFormed then .ok i else .error .unpredictable

/-! ## The 16-bit opcode map -/

/-- One row of the 16-bit opcode table: the fixed bits, which bits are fixed, which of those are should-be bits
(R182), and how the instruction is read from a matching halfword. -/
structure Row16 where
  pattern : Halfword
  mask : Halfword
  shouldBe : Halfword := 0
  read : Halfword → Decoded

/-- Whether a halfword matches a row with the should-be bits left out of the comparison (R182). -/
def Row16.covers (r : Row16) (w : Halfword) : Bool :=
  w &&& (r.mask &&& ~~~r.shouldBe) == r.pattern &&& ~~~r.shouldBe

/-- What a row that covers a halfword reads: UNPREDICTABLE when a should-be bit has the other value (R207). -/
def Row16.decode (r : Row16) (w : Halfword) : Decoded :=
  if w &&& r.mask == r.pattern then r.read w else .error .unpredictable

/-- R186: shift by immediate, add, subtract, move, compare. -/
def rowsShiftAddMove : List Row16 := [
  { pattern := 0x0000, mask := 0xFFC0, read := fun w => defined (.movsReg (lowField w 0) (lowField w 3)) },
  { pattern := 0x0000, mask := 0xF800,
    read := fun w => defined (.lslsImm (lowField w 0) (lowField w 3) (w.extractLsb' 6 5)) },
  { pattern := 0x0800, mask := 0xF800,
    read := fun w => defined (.lsrsImm (lowField w 0) (lowField w 3) (w.extractLsb' 6 5)) },
  { pattern := 0x1000, mask := 0xF800,
    read := fun w => defined (.asrsImm (lowField w 0) (lowField w 3) (w.extractLsb' 6 5)) },
  { pattern := 0x1800, mask := 0xFE00,
    read := fun w => defined (.addsReg (lowField w 0) (lowField w 3) (lowField w 6)) },
  { pattern := 0x1A00, mask := 0xFE00,
    read := fun w => defined (.subsReg (lowField w 0) (lowField w 3) (lowField w 6)) },
  { pattern := 0x1C00, mask := 0xFE00,
    read := fun w => defined (.addsImm3 (lowField w 0) (lowField w 3) (w.extractLsb' 6 3)) },
  { pattern := 0x1E00, mask := 0xFE00,
    read := fun w => defined (.subsImm3 (lowField w 0) (lowField w 3) (w.extractLsb' 6 3)) },
  { pattern := 0x2000, mask := 0xF800, read := fun w => defined (.movsImm (lowField w 8) (w.extractLsb' 0 8)) },
  { pattern := 0x2800, mask := 0xF800, read := fun w => defined (.cmpImm (lowField w 8) (w.extractLsb' 0 8)) },
  { pattern := 0x3000, mask := 0xF800, read := fun w => defined (.addsImm8 (lowField w 8) (w.extractLsb' 0 8)) },
  { pattern := 0x3800, mask := 0xF800, read := fun w => defined (.subsImm8 (lowField w 8) (w.extractLsb' 0 8)) }]

/-- R187: data processing, register; `[5:3]` is the second operand and `[2:0]` the destination or first operand. -/
def rowsDataProcessing : List Row16 := [
  { pattern := 0x4000, mask := 0xFFC0, read := fun w => defined (.ands (lowField w 0) (lowField w 3)) },
  { pattern := 0x4040, mask := 0xFFC0, read := fun w => defined (.eors (lowField w 0) (lowField w 3)) },
  { pattern := 0x4080, mask := 0xFFC0, read := fun w => defined (.lslsReg (lowField w 0) (lowField w 3)) },
  { pattern := 0x40C0, mask := 0xFFC0, read := fun w => defined (.lsrsReg (lowField w 0) (lowField w 3)) },
  { pattern := 0x4100, mask := 0xFFC0, read := fun w => defined (.asrsReg (lowField w 0) (lowField w 3)) },
  { pattern := 0x4140, mask := 0xFFC0, read := fun w => defined (.adcs (lowField w 0) (lowField w 3)) },
  { pattern := 0x4180, mask := 0xFFC0, read := fun w => defined (.sbcs (lowField w 0) (lowField w 3)) },
  { pattern := 0x41C0, mask := 0xFFC0, read := fun w => defined (.rors (lowField w 0) (lowField w 3)) },
  { pattern := 0x4200, mask := 0xFFC0, read := fun w => defined (.tst (lowField w 0) (lowField w 3)) },
  { pattern := 0x4240, mask := 0xFFC0, read := fun w => defined (.rsbs (lowField w 0) (lowField w 3)) },
  { pattern := 0x4280, mask := 0xFFC0, read := fun w => defined (.cmpLow (lowField w 0) (lowField w 3)) },
  { pattern := 0x42C0, mask := 0xFFC0, read := fun w => defined (.cmn (lowField w 0) (lowField w 3)) },
  { pattern := 0x4300, mask := 0xFFC0, read := fun w => defined (.orrs (lowField w 0) (lowField w 3)) },
  { pattern := 0x4340, mask := 0xFFC0, read := fun w => defined (.muls (lowField w 0) (lowField w 3)) },
  { pattern := 0x4380, mask := 0xFFC0, read := fun w => defined (.bics (lowField w 0) (lowField w 3)) },
  { pattern := 0x43C0, mask := 0xFFC0, read := fun w => defined (.mvns (lowField w 0) (lowField w 3)) }]

/-- R188: the high-register forms, BX and BLX; `Rm` is four bits. -/
def rowsSpecialData : List Row16 := [
  { pattern := 0x4400, mask := 0xFF00, read := fun w => defined (.addHigh (splitReg w) (regField w 3)) },
  { pattern := 0x4500, mask := 0xFF00, read := fun w => defined (.cmpHigh (splitReg w) (regField w 3)) },
  { pattern := 0x4600, mask := 0xFF00, read := fun w => defined (.movHigh (splitReg w) (regField w 3)) },
  { pattern := 0x4700, mask := 0xFF87, shouldBe := 0x0007, read := fun w => defined (.bx (regField w 3)) },
  { pattern := 0x4780, mask := 0xFF87, shouldBe := 0x0007, read := fun w => defined (.blx (regField w 3)) }]

/-- R189: load and store single data item. -/
def rowsLoadStore : List Row16 := [
  { pattern := 0x4800, mask := 0xF800, read := fun w => defined (.ldrLit (lowField w 8) (w.extractLsb' 0 8)) },
  { pattern := 0x5000, mask := 0xFE00,
    read := fun w => defined (.strReg (lowField w 0) (lowField w 3) (lowField w 6)) },
  { pattern := 0x5200, mask := 0xFE00,
    read := fun w => defined (.strhReg (lowField w 0) (lowField w 3) (lowField w 6)) },
  { pattern := 0x5400, mask := 0xFE00,
    read := fun w => defined (.strbReg (lowField w 0) (lowField w 3) (lowField w 6)) },
  { pattern := 0x5600, mask := 0xFE00,
    read := fun w => defined (.ldrsbReg (lowField w 0) (lowField w 3) (lowField w 6)) },
  { pattern := 0x5800, mask := 0xFE00,
    read := fun w => defined (.ldrReg (lowField w 0) (lowField w 3) (lowField w 6)) },
  { pattern := 0x5A00, mask := 0xFE00,
    read := fun w => defined (.ldrhReg (lowField w 0) (lowField w 3) (lowField w 6)) },
  { pattern := 0x5C00, mask := 0xFE00,
    read := fun w => defined (.ldrbReg (lowField w 0) (lowField w 3) (lowField w 6)) },
  { pattern := 0x5E00, mask := 0xFE00,
    read := fun w => defined (.ldrshReg (lowField w 0) (lowField w 3) (lowField w 6)) },
  { pattern := 0x6000, mask := 0xF800,
    read := fun w => defined (.strImm (lowField w 0) (lowField w 3) (w.extractLsb' 6 5)) },
  { pattern := 0x6800, mask := 0xF800,
    read := fun w => defined (.ldrImm (lowField w 0) (lowField w 3) (w.extractLsb' 6 5)) },
  { pattern := 0x7000, mask := 0xF800,
    read := fun w => defined (.strbImm (lowField w 0) (lowField w 3) (w.extractLsb' 6 5)) },
  { pattern := 0x7800, mask := 0xF800,
    read := fun w => defined (.ldrbImm (lowField w 0) (lowField w 3) (w.extractLsb' 6 5)) },
  { pattern := 0x8000, mask := 0xF800,
    read := fun w => defined (.strhImm (lowField w 0) (lowField w 3) (w.extractLsb' 6 5)) },
  { pattern := 0x8800, mask := 0xF800,
    read := fun w => defined (.ldrhImm (lowField w 0) (lowField w 3) (w.extractLsb' 6 5)) },
  { pattern := 0x9000, mask := 0xF800, read := fun w => defined (.strSp (lowField w 8) (w.extractLsb' 0 8)) },
  { pattern := 0x9800, mask := 0xF800, read := fun w => defined (.ldrSp (lowField w 8) (w.extractLsb' 0 8)) }]

/-- R190, R191: addresses, stack pointer adjustment, extension, PUSH, CPS, byte reversal, POP, BKPT. -/
def rowsMiscellaneous : List Row16 := [
  { pattern := 0xA000, mask := 0xF800, read := fun w => defined (.adr (lowField w 8) (w.extractLsb' 0 8)) },
  { pattern := 0xA800, mask := 0xF800, read := fun w => defined (.addRdSp (lowField w 8) (w.extractLsb' 0 8)) },
  { pattern := 0xB000, mask := 0xFF80, read := fun w => defined (.addSp (w.extractLsb' 0 7)) },
  { pattern := 0xB080, mask := 0xFF80, read := fun w => defined (.subSp (w.extractLsb' 0 7)) },
  { pattern := 0xB200, mask := 0xFFC0, read := fun w => defined (.sxth (lowField w 0) (lowField w 3)) },
  { pattern := 0xB240, mask := 0xFFC0, read := fun w => defined (.sxtb (lowField w 0) (lowField w 3)) },
  { pattern := 0xB280, mask := 0xFFC0, read := fun w => defined (.uxth (lowField w 0) (lowField w 3)) },
  { pattern := 0xB2C0, mask := 0xFFC0, read := fun w => defined (.uxtb (lowField w 0) (lowField w 3)) },
  { pattern := 0xB400, mask := 0xFE00, read := fun w => defined (.push (w.getLsbD 8) (w.extractLsb' 0 8)) },
  { pattern := 0xB662, mask := 0xFFFF, shouldBe := 0x000F, read := fun _ => defined .cpsie },
  { pattern := 0xB672, mask := 0xFFFF, shouldBe := 0x000F, read := fun _ => defined .cpsid },
  { pattern := 0xBA00, mask := 0xFFC0, read := fun w => defined (.rev (lowField w 0) (lowField w 3)) },
  { pattern := 0xBA40, mask := 0xFFC0, read := fun w => defined (.rev16 (lowField w 0) (lowField w 3)) },
  { pattern := 0xBAC0, mask := 0xFFC0, read := fun w => defined (.revsh (lowField w 0) (lowField w 3)) },
  { pattern := 0xBC00, mask := 0xFE00, read := fun w => defined (.pop (w.getLsbD 8) (w.extractLsb' 0 8)) },
  { pattern := 0xBE00, mask := 0xFF00, read := fun w => defined (.bkpt (w.extractLsb' 0 8)) }]

/-- R192, R208: hints; the last row is the unallocated hint space. -/
def rowsHints : List Row16 := [
  { pattern := 0xBF00, mask := 0xFFFF, read := fun _ => defined .nop },
  { pattern := 0xBF10, mask := 0xFFFF, read := fun _ => defined .yield },
  { pattern := 0xBF20, mask := 0xFFFF, read := fun _ => defined .wfe },
  { pattern := 0xBF30, mask := 0xFFFF, read := fun _ => defined .wfi },
  { pattern := 0xBF40, mask := 0xFFFF, read := fun _ => defined .sev },
  { pattern := 0xBF00, mask := 0xFF0F, read := fun _ => .error .unallocatedHint }]

/-- R193 to R195: multiple load and store, UDF, SVC and the 16-bit branches. UDF and SVC stand before B<cond>. -/
def rowsMultipleAndBranch : List Row16 := [
  { pattern := 0xC000, mask := 0xF800, read := fun w => defined (.stm (lowField w 8) (w.extractLsb' 0 8)) },
  { pattern := 0xC800, mask := 0xF800, read := fun w => defined (.ldm (lowField w 8) (w.extractLsb' 0 8)) },
  { pattern := 0xDE00, mask := 0xFF00, read := fun w => defined (.udf (w.extractLsb' 0 8)) },
  { pattern := 0xDF00, mask := 0xFF00, read := fun w => defined (.svc (w.extractLsb' 0 8)) },
  { pattern := 0xD000, mask := 0xF000,
    read := fun w =>
      match condOf (w.extractLsb' 8 4) with
      | some c => defined (.bCond c (w.extractLsb' 0 8))
      | none => .error .undefined },
  { pattern := 0xE000, mask := 0xF800, read := fun w => defined (.b (w.extractLsb' 0 11)) }]

/-- The 16-bit opcode table, in an order in which the first match is right (R182, R201). -/
def table16 : List Row16 :=
  rowsShiftAddMove ++ rowsDataProcessing ++ rowsSpecialData ++ rowsLoadStore ++ rowsMiscellaneous ++ rowsHints
    ++ rowsMultipleAndBranch

/-- Decodes a 16-bit instruction; a halfword no row covers is undefined (R205, R206). -/
def decode16 (w : Halfword) : Decoded :=
  match table16.find? (fun r => r.covers w) with
  | some r => r.decode w
  | none => .error .undefined

/-! ## The 32-bit opcode map -/

/-- Whether a halfword is the first of a 32-bit instruction: `hw1[15:11]` is 11101, 11110 or 11111 (R181). -/
def isWide (hw1 : Halfword) : Bool :=
  let top := hw1.extractLsb' 11 5
  top == 0b11101#5 || top == 0b11110#5 || top == 0b11111#5

/-- The 24 bits `S:I1:I2:imm10:imm11` of a BL's halfword offset, with `I = NOT(J EOR S)` (R197). -/
def blOffset (hw1 hw2 : Halfword) : BitVec 24 :=
  let s := hw1.extractLsb' 10 1
  let i1 := ~~~(hw2.extractLsb' 13 1 ^^^ s)
  let i2 := ~~~(hw2.extractLsb' 11 1 ^^^ s)
  s ++ i1 ++ i2 ++ hw1.extractLsb' 0 10 ++ hw2.extractLsb' 0 11

/-- One row of the 32-bit opcode table; patterns and masks are pairs of halfwords, the first halfword first (R196). -/
structure Row32 where
  pattern : Halfword × Halfword
  mask : Halfword × Halfword
  shouldBe : Halfword × Halfword := (0, 0)
  read : Halfword → Halfword → Decoded

/-- Whether a pair of halfwords matches a row with the should-be bits left out of the comparison (R182). -/
def Row32.covers (r : Row32) (hw1 hw2 : Halfword) : Bool :=
  hw1 &&& (r.mask.1 &&& ~~~r.shouldBe.1) == r.pattern.1 &&& ~~~r.shouldBe.1
    && hw2 &&& (r.mask.2 &&& ~~~r.shouldBe.2) == r.pattern.2 &&& ~~~r.shouldBe.2

/-- What a row that covers a pair reads: UNPREDICTABLE when a should-be bit has the other value (R207). -/
def Row32.decode (r : Row32) (hw1 hw2 : Halfword) : Decoded :=
  if hw1 &&& r.mask.1 == r.pattern.1 && hw2 &&& r.mask.2 == r.pattern.2 then r.read hw1 hw2
  else .error .unpredictable

/-- R196: the seven 32-bit instructions. A reserved SYSm is UNPREDICTABLE (R198). -/
def table32 : List Row32 := [
  { pattern := (0xF000, 0xD000), mask := (0xF800, 0xD000), read := fun hw1 hw2 => defined (.bl (blOffset hw1 hw2)) },
  { pattern := (0xF380, 0x8800), mask := (0xFFF0, 0xFF00), shouldBe := (0x0010, 0x2F00),
    read := fun hw1 hw2 =>
      match specRegOf (hw2.extractLsb' 0 8) with
      | some r => defined (.msr r (regField hw1 0))
      | none => .error .unpredictable },
  { pattern := (0xF3EF, 0x8000), mask := (0xFFFF, 0xF000), shouldBe := (0x001F, 0x2000),
    read := fun _ hw2 =>
      match specRegOf (hw2.extractLsb' 0 8) with
      | some r => defined (.mrs (regField hw2 8) r)
      | none => .error .unpredictable },
  { pattern := (0xF3BF, 0x8F40), mask := (0xFFFF, 0xFFF0), shouldBe := (0x000F, 0x2F00),
    read := fun _ hw2 => defined (.dsb (hw2.extractLsb' 0 4)) },
  { pattern := (0xF3BF, 0x8F50), mask := (0xFFFF, 0xFFF0), shouldBe := (0x000F, 0x2F00),
    read := fun _ hw2 => defined (.dmb (hw2.extractLsb' 0 4)) },
  { pattern := (0xF3BF, 0x8F60), mask := (0xFFFF, 0xFFF0), shouldBe := (0x000F, 0x2F00),
    read := fun _ hw2 => defined (.isb (hw2.extractLsb' 0 4)) },
  { pattern := (0xF7F0, 0xA000), mask := (0xFFF0, 0xF000),
    read := fun hw1 hw2 => defined (.udfW (hw1.extractLsb' 0 4 ++ hw2.extractLsb' 0 12)) }]

/-- Decodes a 32-bit instruction from its two halfwords (R196, R206). -/
def decode32 (hw1 hw2 : Halfword) : Decoded :=
  match table32.find? (fun r => r.covers hw1 hw2) with
  | some r => r.decode hw1 hw2
  | none => .error .undefined

/-! ## From bytes -/

/-- A little-endian halfword: the byte at the lower address is bits [7:0] (20_memory.md R131, R133). -/
def halfwordOf (b0 b1 : Byte) : Halfword := b1 ++ b0

/-- Decodes the instruction at the front of a byte sequence and returns the bytes after it. A 32-bit instruction is
its first halfword, then its second, each little-endian (R133, R181). -/
def decode : List Byte → Except Reject (Instr × List Byte)
  | b0 :: b1 :: rest =>
    let hw1 := halfwordOf b0 b1
    if isWide hw1 then
      match rest with
      | b2 :: b3 :: rest' => (decode32 hw1 (halfwordOf b2 b3)).map (fun i => (i, rest'))
      | _ => .error .truncated
    else (decode16 hw1).map (fun i => (i, rest))
  | _ => .error .truncated

/-- The two bytes of a halfword in memory order (R133). -/
def bytesOfHalfword (h : Halfword) : List Byte := [h.extractLsb' 0 8, h.extractLsb' 8 8]

/-- The four bytes, in memory order, of the instruction the opcode table writes as the number `w` of `nbits` bits.
The table numbers a 32-bit instruction with its first halfword in bits [31:16] (R182); a 16-bit instruction is
followed by a zero halfword (notes/assumptions/4.md). -/
def tableWordBytes (nbits w : Nat) : List Byte :=
  if nbits ≤ 16 then bytesOfHalfword (BitVec.ofNat 16 w) ++ bytesOfHalfword 0
  else bytesOfHalfword (BitVec.ofNat 16 (w / 2 ^ 16)) ++ bytesOfHalfword (BitVec.ofNat 16 w)

/-- The instruction the decoder reads from a word of the opcode table, or `none` where it refuses. -/
def decodeTableWord (nbits w : Nat) : Option Instr :=
  match decode (tableWordBytes nbits w) with
  | .ok (i, _) => some i
  | .error _ => none

/-! ## The encoder -/

/-- The three bits of a low register field. -/
def lowBits (r : LowReg) : BitVec 3 := BitVec.ofFin r

/-- The four bits of a register field. -/
def regBits (r : Reg) : BitVec 4 := BitVec.ofFin r

/-- The number of a condition (R15). -/
def condBits : Cond → BitVec 4
  | .eq => 0 | .ne => 1 | .cs => 2 | .cc => 3 | .mi => 4 | .pl => 5 | .vs => 6 | .vc => 7 | .hi => 8 | .ls => 9
  | .ge => 10 | .lt => 11 | .gt => 12 | .le => 13

/-- The SYSm number of a special register (R198). -/
def specRegBits : SpecReg → BitVec 8
  | .apsr => 0 | .iapsr => 1 | .eapsr => 2 | .psr => 3 | .ipsr => 5 | .epsr => 6 | .iepsr => 7 | .msp => 8 | .psp => 9
  | .primask => 16 | .control => 20

/-- `prefix10 Rm Rd` (R187, R191). -/
def encode2 (op : BitVec 10) (rm rd : LowReg) : List Halfword := [op ++ lowBits rm ++ lowBits rd]

/-- `prefix7 Rm Rn Rd` (R186, R189). -/
def encode3 (op : BitVec 7) (rm rn rd : LowReg) : List Halfword := [op ++ lowBits rm ++ lowBits rn ++ lowBits rd]

/-- `prefix5 imm5 Rn Rd` (R186, R189). -/
def encodeImm5 (op : BitVec 5) (imm5 : BitVec 5) (rn rd : LowReg) : List Halfword :=
  [op ++ imm5 ++ lowBits rn ++ lowBits rd]

/-- `prefix5 Rd imm8` (R186, R189, R190, R193). -/
def encodeImm8 (op : BitVec 5) (rd : LowReg) (imm8 : BitVec 8) : List Halfword := [op ++ lowBits rd ++ imm8]

/-- `prefix8 D Rm(4) Rd(3)` with `d = D:Rd` (R188). -/
def encodeHigh (op : BitVec 8) (rd rm : Reg) : List Halfword :=
  [op ++ (regBits rd).extractLsb' 3 1 ++ regBits rm ++ (regBits rd).extractLsb' 0 3]

/-- The halfwords of a BL with the halfword offset `off` (R197): `J = NOT(I EOR S)`. -/
def encodeBl (off : BitVec 24) : List Halfword :=
  let s := off.extractLsb' 23 1
  let j1 := ~~~(off.extractLsb' 22 1 ^^^ s)
  let j2 := ~~~(off.extractLsb' 21 1 ^^^ s)
  [0b11110#5 ++ s ++ off.extractLsb' 11 10, 0b11#2 ++ j1 ++ 0b1#1 ++ j2 ++ off.extractLsb' 0 11]

/-- The halfwords of an instruction, in address order, from the patterns of 30_encoding.md R186 to R197; should-be
bits take their required values (R182). -/
def encode : Instr → List Halfword
  | .movsReg rd rm => encode2 0b0000000000#10 rm rd
  | .lslsImm rd rm imm5 => encodeImm5 0b00000#5 imm5 rm rd
  | .lsrsImm rd rm imm5 => encodeImm5 0b00001#5 imm5 rm rd
  | .asrsImm rd rm imm5 => encodeImm5 0b00010#5 imm5 rm rd
  | .addsReg rd rn rm => encode3 0b0001100#7 rm rn rd
  | .subsReg rd rn rm => encode3 0b0001101#7 rm rn rd
  | .addsImm3 rd rn imm3 => [0b0001110#7 ++ imm3 ++ lowBits rn ++ lowBits rd]
  | .subsImm3 rd rn imm3 => [0b0001111#7 ++ imm3 ++ lowBits rn ++ lowBits rd]
  | .movsImm rd imm8 => encodeImm8 0b00100#5 rd imm8
  | .cmpImm rn imm8 => encodeImm8 0b00101#5 rn imm8
  | .addsImm8 rdn imm8 => encodeImm8 0b00110#5 rdn imm8
  | .subsImm8 rdn imm8 => encodeImm8 0b00111#5 rdn imm8
  | .ands rdn rm => encode2 0b0100000000#10 rm rdn
  | .eors rdn rm => encode2 0b0100000001#10 rm rdn
  | .lslsReg rdn rs => encode2 0b0100000010#10 rs rdn
  | .lsrsReg rdn rs => encode2 0b0100000011#10 rs rdn
  | .asrsReg rdn rs => encode2 0b0100000100#10 rs rdn
  | .adcs rdn rm => encode2 0b0100000101#10 rm rdn
  | .sbcs rdn rm => encode2 0b0100000110#10 rm rdn
  | .rors rdn rs => encode2 0b0100000111#10 rs rdn
  | .tst rn rm => encode2 0b0100001000#10 rm rn
  | .rsbs rd rn => encode2 0b0100001001#10 rn rd
  | .cmpLow rn rm => encode2 0b0100001010#10 rm rn
  | .cmn rn rm => encode2 0b0100001011#10 rm rn
  | .orrs rdn rm => encode2 0b0100001100#10 rm rdn
  | .muls rdm rn => encode2 0b0100001101#10 rn rdm
  | .bics rdn rm => encode2 0b0100001110#10 rm rdn
  | .mvns rd rm => encode2 0b0100001111#10 rm rd
  | .addHigh rdn rm => encodeHigh 0b01000100#8 rdn rm
  | .cmpHigh rn rm => encodeHigh 0b01000101#8 rn rm
  | .movHigh rd rm => encodeHigh 0b01000110#8 rd rm
  | .bx rm => [0b010001110#9 ++ regBits rm ++ 0b000#3]
  | .blx rm => [0b010001111#9 ++ regBits rm ++ 0b000#3]
  | .ldrLit rt imm8 => encodeImm8 0b01001#5 rt imm8
  | .strReg rt rn rm => encode3 0b0101000#7 rm rn rt
  | .strhReg rt rn rm => encode3 0b0101001#7 rm rn rt
  | .strbReg rt rn rm => encode3 0b0101010#7 rm rn rt
  | .ldrsbReg rt rn rm => encode3 0b0101011#7 rm rn rt
  | .ldrReg rt rn rm => encode3 0b0101100#7 rm rn rt
  | .ldrhReg rt rn rm => encode3 0b0101101#7 rm rn rt
  | .ldrbReg rt rn rm => encode3 0b0101110#7 rm rn rt
  | .ldrshReg rt rn rm => encode3 0b0101111#7 rm rn rt
  | .strImm rt rn imm5 => encodeImm5 0b01100#5 imm5 rn rt
  | .ldrImm rt rn imm5 => encodeImm5 0b01101#5 imm5 rn rt
  | .strbImm rt rn imm5 => encodeImm5 0b01110#5 imm5 rn rt
  | .ldrbImm rt rn imm5 => encodeImm5 0b01111#5 imm5 rn rt
  | .strhImm rt rn imm5 => encodeImm5 0b10000#5 imm5 rn rt
  | .ldrhImm rt rn imm5 => encodeImm5 0b10001#5 imm5 rn rt
  | .strSp rt imm8 => encodeImm8 0b10010#5 rt imm8
  | .ldrSp rt imm8 => encodeImm8 0b10011#5 rt imm8
  | .adr rd imm8 => encodeImm8 0b10100#5 rd imm8
  | .addRdSp rd imm8 => encodeImm8 0b10101#5 rd imm8
  | .addSp imm7 => [0b101100000#9 ++ imm7]
  | .subSp imm7 => [0b101100001#9 ++ imm7]
  | .sxth rd rm => encode2 0b1011001000#10 rm rd
  | .sxtb rd rm => encode2 0b1011001001#10 rm rd
  | .uxth rd rm => encode2 0b1011001010#10 rm rd
  | .uxtb rd rm => encode2 0b1011001011#10 rm rd
  | .push lr list => [0b1011010#7 ++ BitVec.ofBool lr ++ list]
  | .cpsie => [0b1011011001100010#16]
  | .cpsid => [0b1011011001110010#16]
  | .rev rd rm => encode2 0b1011101000#10 rm rd
  | .rev16 rd rm => encode2 0b1011101001#10 rm rd
  | .revsh rd rm => encode2 0b1011101011#10 rm rd
  | .pop pc list => [0b1011110#7 ++ BitVec.ofBool pc ++ list]
  | .bkpt imm8 => [0b10111110#8 ++ imm8]
  | .nop => [0b1011111100000000#16]
  | .yield => [0b1011111100010000#16]
  | .wfe => [0b1011111100100000#16]
  | .wfi => [0b1011111100110000#16]
  | .sev => [0b1011111101000000#16]
  | .stm rn list => encodeImm8 0b11000#5 rn list
  | .ldm rn list => encodeImm8 0b11001#5 rn list
  | .udf imm8 => [0b11011110#8 ++ imm8]
  | .svc imm8 => [0b11011111#8 ++ imm8]
  | .bCond c imm8 => [0b1101#4 ++ condBits c ++ imm8]
  | .b imm11 => [0b11100#5 ++ imm11]
  | .bl off24 => encodeBl off24
  | .msr r rn => [0b111100111000#12 ++ regBits rn, 0b10001000#8 ++ specRegBits r]
  | .mrs rd r => [0b1111001111101111#16, 0b1000#4 ++ regBits rd ++ specRegBits r]
  | .dsb option => [0b1111001110111111#16, 0b100011110100#12 ++ option]
  | .dmb option => [0b1111001110111111#16, 0b100011110101#12 ++ option]
  | .isb option => [0b1111001110111111#16, 0b100011110110#12 ++ option]
  | .udfW imm16 => [0b111101111111#12 ++ imm16.extractLsb' 12 4, 0b1010#4 ++ imm16.extractLsb' 0 12]

/-- The bytes of an instruction in memory order (R133). -/
def encodeBytes (i : Instr) : List Byte := (encode i).flatMap bytesOfHalfword

/-- The length of an instruction in bytes, 2 or 4 (R181). -/
def Instr.length (i : Instr) : Nat := 2 * (encode i).length

end Sys2Proof
end

