-- ==== Sys2Proof/Machine/Fetch.lean ====
section
/-!
DEFINITION. Fetching and decoding the instruction at the program counter (20_memory.md R133, R145).
-/

namespace Sys2Proof.Machine

/-- The checks of one fetched halfword at `a`: Execute Never, then the memory map (R145). -/
def State.fetchCheck (s : State) (a : Word) : Access Unit :=
  if (addressRegion a).executeNever then .hardFault .executeNever
  else
    match targetOf s.memMap .fetch a 2 with
    | .memory => .ok ()
    | .nothing => .hardFault .busErrorFetch
    | .device => .refused .deviceAccess

/-- The bytes in memory from the program counter on, as many as the longest instruction has. -/
def State.codeBytes (s : State) : List Byte :=
  [s.mem.readByte (byteAddress s.pc 0), s.mem.readByte (byteAddress s.pc 1), s.mem.readByte (byteAddress s.pc 2),
    s.mem.readByte (byteAddress s.pc 3)]

/-- The instruction a decoding gives, or why none is executed (R145, R207, R208). -/
def ofDecoding (d : Except Reject (Instr × List Byte)) : Access Instr :=
  match d with
  | .ok (i, _) => .ok i
  | .error .undefined => .hardFault .undefined
  | .error .truncated => .hardFault .undefined
  | .error .unpredictable => .refused .unpredictable
  | .error .unallocatedHint => .refused .unallocatedHint

/-- Fetches the instruction at the program counter with the checks of R145 in their order. A HardFault that the second
halfword of a 32-bit instruction raises has the instruction's own address as its return address too, as the first
halfword's has: DESIGN CHOICE, notes/assumptions/42.md. -/
def State.fetchInstr (s : State) : Access Instr :=
  if !s.thumb then .hardFault .notThumb
  else
    (s.fetchCheck s.pc).bind fun _ =>
    (if isWide (s.mem.readHalfword s.pc) then s.fetchCheck (s.pc + 2) else .ok ()).bind fun _ =>
    ofDecoding (decode s.codeBytes)

/-- Bytes stored at rising addresses from `a` on. -/
def Memory.placeBytes (m : Memory) (a : Word) : List Byte → Memory
  | [] => m
  | b :: bs => (m.writeByte (byteAddress a 0) b).placeBytes (a + 1) bs

/-- The instruction that the opcode table writes as `w`, stored at the program counter, and Thumb state. -/
def State.placeInstr (s : State) (nbits w : Nat) : State :=
  { s with mem := s.mem.placeBytes s.pc (tableWordBytes nbits w), thumb := true }

end Sys2Proof.Machine
end

