-- ==== Sys2Proof/Machine/Reset.lean ====
section
/-!
DEFINITION. `Reset()` of a running machine (70_reset_and_hazards.md R500, R501): a warm reset or a software reset
request (R503). State.reset is the machine after the first reset.
-/

namespace Sys2Proof.Machine

/-- The state of R500 before the two vector reads. The registers that R500 calls unknown are open values (U14,
notes/assumptions/1.md). The memory, the memory map, CCR_VALUE (D13) and what the host still supplies are kept. -/
def State.resetRegisters (s : State) (lines : BitVec 32) : State where
  regs := Vector.ofFn (fun i : Fin 13 => Config.freeWord (s.freeIndex + i.val))
  msp := 0
  psp := alignWord (Config.freeWord (s.freeIndex + 13))
  lr := Config.freeWord (s.freeIndex + 14)
  pc := 0
  apsr := { n := Config.freeBit s.freeIndex, z := Config.freeBit (s.freeIndex + 1),
            c := Config.freeBit (s.freeIndex + 2), v := Config.freeBit (s.freeIndex + 3) }
  ipsr := 0
  thumb := false
  primask := false
  spsel := false
  nvic := { enable := 0, pending := 0, active := 0, ipr := Vector.replicate 8 0, line := lines, lastLine := 0 }
  scb := { sevOnPend := false, sleepDeep := false, sleepOnExit := false, ccr := s.scb.ccr, shpr2 := 0, shpr3 := 0,
           resetRequest := false }
  systick := { enable := false, tickInt := false, clkSource := false, countFlag := false,
               reload := (Config.freeWord (s.freeIndex + 15)).extractLsb' 0 24,
               current := (Config.freeWord (s.freeIndex + 16)).extractLsb' 0 24 }
  event := Config.freeBit (s.freeIndex + 4)
  sleep := .awake
  lockup := false
  mem := s.mem
  memMap := s.memMap
  inputs := s.inputs
  stored := []
  freeIndex := s.freeIndex + 17

/-- The initial stack pointer and the reset vector (R500): MSP from address 0, EPSR.T and pc from address 4. A read that
fails gives lockup (R501, D32); what MSP, the PC and EPSR.T hold in that lockup the spec does not say, and the model
leaves them 0, MSP too when only the read at address 4 fails: DESIGN CHOICE, notes/assumptions/41.md. -/
def State.loadResetVector (s : State) : Result :=
  match (s.loadWord 0).bind (fun (sp, t) => (t.loadWord 4).bind (fun (v, u) => .ok (sp, v, u))) with
  | .ok (sp, v, u) => .next ((u.setMainSp sp).interworkTo v)
  | .hardFault _ => .next (s.lockedUp s)
  | .fault r => .fault r
  | .refused r => .refused r

/-- Memory with an open byte at each of the given addresses. -/
def State.forget : List Word → State → State
  | [], s => s
  | a :: as, s =>
    let (w, t) := s.drawWord
    State.forget as { t with mem := t.mem.writeByte a.toNat (w.extractLsb' 0 8) }

/-- `Reset()` (R500) while the interrupt lines have the given levels. -/
def State.warmReset (s : State) (lines : BitVec 32) : Result := (s.resetRegisters lines).loadResetVector

end Sys2Proof.Machine
end

