-- ==== Sys2Proof/Machine/Cycle.lean ====
section
/-!
DEFINITION. One step of the machine (00_scope.md R23, R24): reset, the NVIC and SysTick agents, sleep, exception entry, or
one instruction.
-/

namespace Sys2Proof.Machine

/-- Fetches and executes the instruction at the program counter (R24, steps 3 to 5). -/
def State.runInstr (s : State) : Result := s.fetchInstr.conclude s fun i => exec i s

/-- What an awake core does (R24, steps 2 to 5): it may take the exception of the highest priority that is takeable
(60_exceptions.md R425, D18), else it runs an instruction. -/
def State.coreStep (s : State) (mayTake : Bool) : Result :=
  match (if mayTake then s.nextException else none) with
  | some e => exceptionEntry s e s.pc s
  | none => s.runInstr

/-- A step without a reset: the agents (R461, R470), then nothing in lockup (R445) or asleep (R480), else a core step. -/
def State.proceed (s : State) (i : HostInput) : Result :=
  let u := s.runAgents i
  if u.lockup then .next u
  else
    let v := u.wakeUp i.wake
    match v.sleep with
    | .asleep _ _ => .next v
    | .awake => v.coreStep i.takeException

/-- A reset inside the instruction or exception entry that the step would have made (R404, R500): it may have stored some
of its bytes, so each byte that it stores to has no known value afterwards (R502). Where the spec refuses that
instruction, what it stores is not known either and the step stops in the same way (notes/assumptions/12.md). -/
def State.resetInside (s : State) (i : HostInput) : Result :=
  match s.proceed i with
  | .next u => (u.forget u.stored).warmReset i.lines
  | .fault r => .fault r
  | .refused r => .refused r

/-- One step of the machine with the host's next input: the reset that a SYSRESETREQ write has asked for (R503), a reset
that the host asks for (R404, R500), or a step without one. -/
def State.cycle (s : State) : Result :=
  let (i, t) := s.takeInput
  if t.scb.resetRequest then t.warmReset i.lines
  else
    match i.reset with
    | .absent => t.proceed i
    | .betweenInstructions => t.warmReset i.lines
    | .insideInstruction => t.resetInside i

end Sys2Proof.Machine
end

