-- ==== Sys2Proof/Machine/Step.lean ====
section
/-!
DEFINITION. The step function, and how the host places one instruction where the next step fetches it.
-/

namespace Sys2Proof.Machine

/-- One step of the machine (00_scope.md R24). -/
def step (s : State) : Host.Outcome State Fault Refusal := s.cycle

/-- The instruction that the opcode table writes as `w`, followed by zero bits, stored at the program counter, with
EPSR.T set so that the next step executes it (notes/assumptions/8.md). -/
def State.withFetchWord (s : State) (nbits w : Nat) : State := s.placeInstr nbits w

end Sys2Proof.Machine
end

