-- ==== Sys2Proof/Safety.lean ====
section
/-!
DEFINITION. The terms that claims use: the invariant of the machine, what a step leaves unchanged, the numbers held in
memory, and what it means that an exception has been entered.
-/

namespace Sys2Proof.Machine

/-! ## The invariant -/

/-- The exceptions that can be pending or active: 3, 11, 14, 15 and 16 to 47 (10_state.md R90; there is no NMI,
60_exceptions.md R405). -/
def exceptionMask : BitVec 48 := 0xFFFFFFFFC808#48

/-- What every step keeps: memory in its canonical form, bit [0] of the PC (10_state.md R37) and bits [1:0] of the stack
pointers (R35) clear, CONTROL bit [1] clear in Handler mode (R46), pending and active bits at exception numbers only
(R90), and priority fields with only their implemented bits (R60, R72, R73). -/
def State.inv (s : State) : Bool :=
  s.mem.wf && !s.pc.getLsbD 0 && alignWord s.msp == s.msp && alignWord s.psp == s.psp
    && (!s.handlerMode || !s.spsel)
    && s.nvic.pending &&& ~~~exceptionMask == 0 && s.nvic.active &&& ~~~exceptionMask == 0
    && s.nvic.ipr.all (fun w => w &&& ~~~iprMask == 0)
    && s.scb.shpr2 &&& ~~~shpr2Mask == 0 && s.scb.shpr3 &&& ~~~shpr3Mask == 0

/-! ## What is unchanged -/

/-- Every register but the PC reads as before, unless it is named; R13 is the current stack pointer, so the other one is
unchanged whatever is named. -/
structure KeepsRegisters (s t : State) (written : List Reg) : Prop where
  register : ∀ r : Reg, r ≠ 15 → r ∉ written → t.readReg r = s.readReg r
  mainSp : (13 : Reg) ∉ written ∨ s.onProcessStack = true → t.mainSp = s.mainSp
  processSp : (13 : Reg) ∉ written ∨ s.onProcessStack = false → t.processSp = s.processSp

/-- The program status but for the flags, the special registers, the exception state and the peripherals' registers. -/
structure KeepsSystem (s t : State) : Prop where
  ipsr : t.ipsr = s.ipsr
  thumb : t.thumb = s.thumb
  primask : t.primask = s.primask
  spsel : t.spsel = s.spsel
  nvic : t.nvic = s.nvic
  scb : t.scb = s.scb
  systick : t.systick = s.systick
  event : t.event = s.event
  sleep : t.sleep = s.sleep
  lockup : t.lockup = s.lockup
  memMap : t.memMap = s.memMap
  inputs : t.inputs = s.inputs

/-- Every byte of memory reads as before. -/
def KeepsMemory (s t : State) : Prop := ∀ k : Nat, t.mem.readByte k = s.mem.readByte k

/-- Every byte of memory reads as before, but the `n` bytes from `a` on. -/
def KeepsMemoryOutside (s t : State) (a : Word) (n : Nat) : Prop :=
  ∀ k : Nat, (∀ i : Nat, i < n → byteAddress a i ≠ k) → t.mem.readByte k = s.mem.readByte k

/-- An instruction of `len` bytes that writes at most the named registers and the flags, and goes on. -/
structure RegistersOnly (s t : State) (len : Word) (written : List Reg) : Prop where
  pc : t.pc = s.pc + len
  registers : KeepsRegisters s t written
  system : KeepsSystem s t
  memory : KeepsMemory s t

/-- An instruction of 2 bytes that writes `v` to the low register `rd`, at most the flags besides, and goes on. -/
structure WritesLow (s t : State) (rd : LowReg) (v : Word) : Prop where
  value : t.readLow rd = v
  frame : RegistersOnly s t 2 [rd.toReg]

/-! ## Flags -/

/-- N and Z as a result gives them (00_scope.md R13), C and V as said. -/
structure FlagsAre (f : Apsr) (r : Word) (c v : Bool) : Prop where
  n : f.n = decide (r.toInt < 0)
  z : f.z = decide (r.toNat = 0)
  c : f.c = c
  v : f.v = v

/-- Whether an exact result has no 32-bit signed representation (R12). -/
def outOfRange (x : Int) : Bool := decide (x < -2147483648 ∨ 2147483648 ≤ x)

/-! ## Memory -/

/-- The number in the `n` bytes from `a` on, the least significant byte at the lowest address (20_memory.md R131). -/
def State.number (s : State) (a : Word) : Nat → Nat
  | 0 => 0
  | n + 1 => s.number a n + 256 ^ n * (s.mem.readByte (byteAddress a n)).toNat

/-- An aligned access outside the Private Peripheral Bus that memory answers. -/
def State.ordinary (s : State) (kind : AccessKind) (a : Word) (n : Nat) : Bool :=
  aligned a n && !inPpb a && targetOf s.memMap kind a n == .memory

/-- `n` words from `a` on, each answered by memory. -/
def State.ordinaryWords (s : State) (kind : AccessKind) (a : Word) (n : Nat) : Bool :=
  (List.range n).all (fun i => s.ordinary kind (a + BitVec.ofNat 32 (4 * i)) 4)

/-- The one data access of a load or store: its kind, address and size (40_memory_access.md R232 to R248). -/
inductive SingleAccess (s : State) : Instr → AccessKind → Word → Nat → Prop where
  | ldrImm rt rn imm5 : SingleAccess s (.ldrImm rt rn imm5) .read (s.readLow rn + BitVec.ofNat 32 (imm5.toNat * 4)) 4
  | strImm rt rn imm5 : SingleAccess s (.strImm rt rn imm5) .write (s.readLow rn + BitVec.ofNat 32 (imm5.toNat * 4)) 4
  | ldrhImm rt rn imm5 : SingleAccess s (.ldrhImm rt rn imm5) .read (s.readLow rn + BitVec.ofNat 32 (imm5.toNat * 2)) 2
  | strhImm rt rn imm5 : SingleAccess s (.strhImm rt rn imm5) .write (s.readLow rn + BitVec.ofNat 32 (imm5.toNat * 2)) 2
  | ldrbImm rt rn imm5 : SingleAccess s (.ldrbImm rt rn imm5) .read (s.readLow rn + BitVec.ofNat 32 imm5.toNat) 1
  | strbImm rt rn imm5 : SingleAccess s (.strbImm rt rn imm5) .write (s.readLow rn + BitVec.ofNat 32 imm5.toNat) 1
  | ldrSp rt imm8 : SingleAccess s (.ldrSp rt imm8) .read (s.sp + BitVec.ofNat 32 (imm8.toNat * 4)) 4
  | strSp rt imm8 : SingleAccess s (.strSp rt imm8) .write (s.sp + BitVec.ofNat 32 (imm8.toNat * 4)) 4
  | ldrLit rt imm8 :
    SingleAccess s (.ldrLit rt imm8) .read (BitVec.ofNat 32 ((s.pc + 4).toNat / 4 * 4 + imm8.toNat * 4)) 4
  | ldrReg rt rn rm : SingleAccess s (.ldrReg rt rn rm) .read (s.readLow rn + s.readLow rm) 4
  | strReg rt rn rm : SingleAccess s (.strReg rt rn rm) .write (s.readLow rn + s.readLow rm) 4
  | ldrhReg rt rn rm : SingleAccess s (.ldrhReg rt rn rm) .read (s.readLow rn + s.readLow rm) 2
  | ldrshReg rt rn rm : SingleAccess s (.ldrshReg rt rn rm) .read (s.readLow rn + s.readLow rm) 2
  | strhReg rt rn rm : SingleAccess s (.strhReg rt rn rm) .write (s.readLow rn + s.readLow rm) 2
  | ldrbReg rt rn rm : SingleAccess s (.ldrbReg rt rn rm) .read (s.readLow rn + s.readLow rm) 1
  | ldrsbReg rt rn rm : SingleAccess s (.ldrsbReg rt rn rm) .read (s.readLow rn + s.readLow rm) 1
  | strbReg rt rn rm : SingleAccess s (.strbReg rt rn rm) .write (s.readLow rn + s.readLow rm) 1

/-- The words of a multiple transfer: its kind, its lowest address and its registers, the lowest address first (R249 to
R252). -/
inductive MultipleAccess (s : State) : Instr → AccessKind → Word → List Reg → Prop where
  | ldm rn list : list ≠ 0 →
    MultipleAccess s (.ldm rn list) .read (s.readLow rn) ((registersOf list).map LowReg.toReg)
  | stm rn list : list ≠ 0 →
    MultipleAccess s (.stm rn list) .write (s.readLow rn) ((registersOf list).map LowReg.toReg)
  | push lr list : (Instr.push lr list).wellFormed = true →
    MultipleAccess s (.push lr list) .write (s.sp - BitVec.ofNat 32 (4 * ((registersOf list).length + if lr then 1 else 0)))
      ((registersOf list).map LowReg.toReg ++ if lr then [14] else [])
  | pop pc list : (Instr.pop pc list).wellFormed = true →
    MultipleAccess s (.pop pc list) .read s.sp ((registersOf list).map LowReg.toReg ++ if pc then [15] else [])

/-- A single access that faults for what it accesses: to an address that is not a multiple of its size (20_memory.md
R135), of a byte or halfword of the Private Peripheral Bus (R141), or where nothing answers (R138). -/
def State.accessFaults (s : State) (kind : AccessKind) (a : Word) (n : Nat) : Prop :=
  aligned a n = false ∨ (inPpb a = true ∧ n ≠ 4) ∨ (inPpb a = false ∧ targetOf s.memMap kind a n = .nothing)

/-- A multiple transfer of `n` words that a bus error stops: nothing answers at one of them, and memory or nothing at
each (R138). -/
def State.transferFaults (s : State) (kind : AccessKind) (base : Word) (n : Nat) : Prop :=
  (∀ k : Nat, k < n → inPpb (base + BitVec.ofNat 32 (4 * k)) = false ∧
    targetOf s.memMap kind (base + BitVec.ofNat 32 (4 * k)) 4 ≠ .device) ∧
  ∃ k : Nat, k < n ∧ targetOf s.memMap kind (base + BitVec.ofNat 32 (4 * k)) 4 = .nothing

/-- What a multiple transfer `i` from `s` leaves when a bus error stops it (20_memory.md R138, D9, U13): each register of
a load list and each word of a store range is old or new, the base register and SP are unchanged, and so is all else. The
word that STM stores for a base which is not its lowest register is open (U1). -/
structure StoppedTransfer (s p : State) (i : Instr) (kind : AccessKind) (base : Word) (rs : List Reg) : Prop where
  pc : p.pc = s.pc
  apsr : p.apsr = s.apsr
  system : KeepsSystem s p
  registers : KeepsRegisters s p (if kind = .read then rs else [])
  baseRegister : ∀ rn list, i = .ldm rn list → p.readLow rn = s.readLow rn
  loaded : kind = .read → ∀ (k : Nat) (h : k < rs.length), rs[k] ≠ 15 →
    p.readReg rs[k] = s.readReg rs[k] ∨ (p.readReg rs[k]).toNat = s.number (base + BitVec.ofNat 32 (4 * k)) 4
  words : kind = .write → ∀ (k : Nat) (h : k < rs.length),
    (k = 0 ∨ ∀ rn list, i = .stm rn list → rs[k] ≠ rn.toReg) →
    p.number (base + BitVec.ofNat 32 (4 * k)) 4 = s.number (base + BitVec.ofNat 32 (4 * k)) 4 ∨
      p.number (base + BitVec.ofNat 32 (4 * k)) 4 = (s.readReg rs[k]).toNat
  memory : KeepsMemoryOutside s p base (if kind = .write then 4 * rs.length else 0)

/-! ## Steps -/

/-- The state that a step's core acts in: after the input has been taken, the agents have run and a wake-up condition
has ended sleep (00_scope.md R23, R24). -/
def State.ready (s : State) : State := ((s.takeInput.2).runAgents s.takeInput.1).wakeUp s.takeInput.1.wake

/-- No reset is asked for, by the host or by a SYSRESETREQ write. -/
def State.noReset (s : State) : Prop := s.takeInput.1.reset = .absent ∧ s.scb.resetRequest = false

/-- A halfword can be fetched from `a` (20_memory.md R145). -/
def State.fetchable (s : State) (a : Word) : Prop :=
  (addressRegion a).executeNever = false ∧ targetOf s.memMap .fetch a 2 = .memory

/-- A fetch from `a` faults: Execute Never, or a bus error (R145). -/
def State.fetchFaults (s : State) (a : Word) : Prop :=
  (addressRegion a).executeNever = true ∨ targetOf s.memMap .fetch a 2 = .nothing

/-- The instruction at the program counter faults before it executes: EPSR.T is clear, one of its halfwords cannot be
fetched, or its encoding is undefined (R145, 30_encoding.md R205). -/
def State.instrFaults (s : State) : Prop :=
  s.thumb = false ∨
    (s.thumb = true ∧ s.fetchFaults s.pc) ∨
    (s.thumb = true ∧ s.fetchable s.pc ∧ isWide (s.mem.readHalfword s.pc) = true ∧ s.fetchFaults (s.pc + 2)) ∨
    (s.thumb = true ∧ s.fetchable s.pc ∧ (isWide (s.mem.readHalfword s.pc) = true → s.fetchable (s.pc + 2)) ∧
      decode s.codeBytes = .error .undefined)

/-- What a reset of a machine in state `s` leaves, whatever memory holds then (70_reset_and_hazards.md R500). -/
structure Restarted (s t : State) : Prop where
  msp : t.msp.toNat = t.number 0 4 / 4 * 4
  pc : t.pc.toNat = t.number 4 4 / 2 * 2
  thumb : t.thumb = decide (t.number 4 4 % 2 = 1)
  ipsr : t.ipsr = 0
  primask : t.primask = false
  spsel : t.spsel = false
  lockup : t.lockup = false
  sleep : t.sleep = .awake
  enable : t.nvic.enable = 0
  pending : t.nvic.pending = 0
  active : t.nvic.active = 0
  ipr : ∀ n : Fin 8, t.nvic.ipr[n] = 0
  lastLine : t.nvic.lastLine = 0
  shpr2 : t.scb.shpr2 = 0
  shpr3 : t.scb.shpr3 = 0
  scr : t.scrValue = 0
  systCsr : t.systCsrValue = 0
  resetRequest : t.scb.resetRequest = false
  memMap : t.memMap = s.memMap
  cpuid : t.loadWord 0xE000ED00 = .ok (0x410CC200, t)
  ccr : t.loadWord 0xE000ED14 = .ok (s.scb.ccr, t)
  systCalib : t.loadWord 0xE000E01C = .ok (0xC0000000, t)
  endianess : ∃ v u, t.loadWord 0xE000ED0C = .ok (v, u) ∧ v.getLsbD 15 = false

/-! ## Exceptions -/

/-- The instruction loads `v` into the PC in the way that can return from an exception (60_exceptions.md R440): BX, or
POP with PC, which loads the registers of `list` first and moves SP up by `n` words. -/
inductive LoadsPc (s : State) : Instr → Word → BitVec 8 → Nat → Prop where
  | bx rm : rm ≠ 13 → rm ≠ 15 → LoadsPc s (.bx rm) (s.readReg rm) 0 0
  | pop list : s.ordinaryWords .read s.sp ((registersOf list).length + 1) = true →
    LoadsPc s (.pop true list)
      (BitVec.ofNat 32 (s.number (s.sp + BitVec.ofNat 32 (4 * (registersOf list).length)) 4)) list
      ((registersOf list).length + 1)

/-- What an exception return from memory leaves, but for the sleep state (R440, R441): the return is by an instruction that
loads the registers of `list` and moves SP up by `count` words, and unstacks the frame at `fp`. -/
structure Returned (s t : State) (list : BitVec 8) (count : Nat) (fromProcess : Bool) (fp : Word) : Prop where
  r0 : (t.readReg 0).toNat = s.number fp 4
  r1 : (t.readReg 1).toNat = s.number (fp + 0x04) 4
  r2 : (t.readReg 2).toNat = s.number (fp + 0x08) 4
  r3 : (t.readReg 3).toNat = s.number (fp + 0x0C) 4
  r12 : (t.readReg 12).toNat = s.number (fp + 0x10) 4
  lr : t.lr.toNat = s.number (fp + 0x14) 4
  pc : t.pc.toNat = s.number (fp + 0x18) 4 / 2 * 2
  -- the stacked PSR
  n : t.apsr.n = (s.number (fp + 0x1C) 4).testBit 31
  z : t.apsr.z = (s.number (fp + 0x1C) 4).testBit 30
  c : t.apsr.c = (s.number (fp + 0x1C) 4).testBit 29
  v : t.apsr.v = (s.number (fp + 0x1C) 4).testBit 28
  thumb : t.thumb = (s.number (fp + 0x1C) 4).testBit 24
  ipsr : t.ipsr.toNat = s.number (fp + 0x1C) 4 % 64
  -- the stacks, of which the one unstacked from gets back the alignment that bit [9] of the stacked PSR says
  spsel : t.spsel = fromProcess
  mainSp : t.mainSp = if fromProcess then s.mainSp + BitVec.ofNat 32 (4 * count)
    else (fp + 32) ||| (if (s.number (fp + 0x1C) 4).testBit 9 then 4 else 0)
  processSp : t.processSp = if fromProcess then (fp + 32) ||| (if (s.number (fp + 0x1C) 4).testBit 9 then 4 else 0)
    else s.processSp
  -- the registers that the frame does not hold
  kept : ∀ r : Reg, 4 ≤ r.val → r.val ≤ 11 → list.getLsbD r.val = false → t.readReg r = s.readReg r
  loaded : ∀ r : LowReg, 4 ≤ r.val → list.getLsbD r.val = true → (t.readLow r).toNat =
    s.number (s.sp + BitVec.ofNat 32 (4 * ((registersOf list).filter (fun q => decide (q.val < r.val))).length)) 4
  -- the handler has ended, and the rest is left
  active : ∀ e : Nat, t.isActive e = (s.isActive e && decide (e ≠ s.ipsr.toNat))
  pending : t.nvic.pending = s.nvic.pending
  enable : t.nvic.enable = s.nvic.enable
  ipr : t.nvic.ipr = s.nvic.ipr
  primask : t.primask = s.primask
  scb : t.scb = s.scb
  systick : t.systick = s.systick
  event : t.event = s.event
  lockup : t.lockup = s.lockup
  memMap : t.memMap = s.memMap
  memory : KeepsMemory s t

/-- Whether the frame of an exception taken now lies in memory, above the vector table, and the vector of `e` can be
read. -/
def State.canEnter (s : State) (e : Nat) : Bool :=
  s.ordinaryWords .write s.framePointer 8 && decide (0xC0 ≤ s.framePointer.toNat)
    && decide (s.framePointer.toNat + 32 ≤ 2 ^ 32) && s.ordinary .read (vectorAddress e) 4

/-- The number that stands for a bit. -/
def bitValue (b : Bool) : Nat := if b then 1 else 0

/-- Exception `e` has been entered from `s` with the return address `ret` (60_exceptions.md R430, R431, R433, R434). -/
structure Entered (s t : State) (e : Nat) (ret : Word) : Prop where
  -- the stack frame
  mainSp : t.mainSp = if s.onProcessStack then s.mainSp else s.framePointer
  processSp : t.processSp = if s.onProcessStack then s.framePointer else s.processSp
  r0 : t.number s.framePointer 4 = (s.readReg 0).toNat
  r1 : t.number (s.framePointer + 0x04) 4 = (s.readReg 1).toNat
  r2 : t.number (s.framePointer + 0x08) 4 = (s.readReg 2).toNat
  r3 : t.number (s.framePointer + 0x0C) 4 = (s.readReg 3).toNat
  r12 : t.number (s.framePointer + 0x10) 4 = (s.readReg 12).toNat
  stackedLr : t.number (s.framePointer + 0x14) 4 = s.lr.toNat
  returnAddress : t.number (s.framePointer + 0x18) 4 = ret.toNat
  xpsr : t.number (s.framePointer + 0x1C) 4 =
    2 ^ 31 * bitValue s.apsr.n + 2 ^ 30 * bitValue s.apsr.z + 2 ^ 29 * bitValue s.apsr.c
      + 2 ^ 28 * bitValue s.apsr.v + 2 ^ 24 * bitValue s.thumb + 2 ^ 9 * bitValue (s.sp.getLsbD 2) + s.ipsr.toNat
  -- the link register and the new context
  lr : t.lr = if s.handlerMode then 0xFFFFFFF1 else if s.spsel then 0xFFFFFFFD else 0xFFFFFFF9
  ipsr : t.ipsr.toNat = e
  spsel : t.spsel = false
  active : ∀ k : Nat, t.isActive k = (decide (k = e) || s.isActive k)
  pending : ∀ k : Nat, t.isPending k = (!decide (k = e) && s.isPending k)
  awake : t.sleep = .awake
  -- the vector
  pc : t.pc.toNat = s.number (vectorAddress e) 4 / 2 * 2
  thumb : t.thumb = decide (s.number (vectorAddress e) 4 % 2 = 1)
  -- what entry leaves
  registers : ∀ r : Fin 13, t.regs[r] = s.regs[r]
  apsr : t.apsr = s.apsr
  primask : t.primask = s.primask
  enable : t.nvic.enable = s.nvic.enable
  ipr : t.nvic.ipr = s.nvic.ipr
  scb : t.scb = s.scb
  systick : t.systick = s.systick
  lockup : t.lockup = s.lockup
  memMap : t.memMap = s.memMap
  memory : KeepsMemoryOutside s t s.framePointer 32

end Sys2Proof.Machine
end

