-- ==== Sys2Proof/Certificates/Slice0/Obligations.lean ====
section
/-!
DEFINITION. The statements for the provers: what the spec's rules say of the encodings, of every instruction, of
exceptions, of the peripherals' registers and of the machine as a whole.
-/

open Sys2Proof Sys2Proof.Machine

/-! ## Encodings -/

/-- A few words written out from the encodings of 30_encoding.md decode to the instructions they stand for. -/
def Obligations.DecodeKnownWords : Prop :=
  decode16 0b00100_010_01111111#16 = .ok (.movsImm 2 0x7F) ∧
  decode16 0b0001100_011_010_001#16 = .ok (.addsReg 1 2 3) ∧
  decode16 0b01000110_1_1100_010#16 = .ok (.movHigh 10 12) ∧
  decode16 0b01101_00001_111_100#16 = .ok (.ldrImm 4 7 1) ∧
  decode16 0b1011010_1_00010000#16 = .ok (.push true 0x10) ∧
  decode16 0b11000_001_00001100#16 = .ok (.stm 1 0x0C) ∧
  decode16 0b1101_0001_11111110#16 = .ok (.bCond .ne 0xFE) ∧
  decode32 0b11110_0_0000000000#16 0b11_1_1_1_00000000001#16 = .ok (.bl 1) ∧
  decode32 0b111100111000_0000#16 0b10001000_00001001#16 = .ok (.msr .psp 0)

/-- Decode and encode agree: the bytes of a well-formed instruction, whatever follows them, decode to it and leave what
follows (R181 to R199). -/
def Obligations.DecodeEncode : Prop :=
  ∀ (i : Instr) (rest : List Byte), i.wellFormed = true → decode (encodeBytes i ++ rest) = .ok (i, rest)

/-- What decodes is well formed, and its bytes are exactly the encoding of the instruction: no two words decode to the
same instruction, and no restriction of R207 is passed over. -/
def Obligations.DecodedIsEncoded : Prop :=
  ∀ (bs rest : List Byte) (i : Instr), decode bs = .ok (i, rest) → i.wellFormed = true ∧ bs = encodeBytes i ++ rest

/-- An operand combination that R207 calls UNPREDICTABLE is refused by name by the instruction's meaning. LSLS with a zero
immediate is the one ill-formed term that R207 does not name: its word is MOVS Rd, Rm (R201). -/
def Obligations.IllFormedRefused : Prop :=
  ∀ (i : Instr) (s : State), i.wellFormed = false → (∀ rd rm imm5, i ≠ .lslsImm rd rm imm5) →
    exec i s = .refused .unpredictable

/-! ## The machine's step -/

/-- A step runs the decoded instruction: a machine in Thumb state that is awake, or wakes in this step, and that is asked
for nothing else, whose next bytes are in executable memory and decode to `i`, steps to what `exec i` gives (R24, R145).
Where EPSR.T is clear, a halfword cannot be fetched or the bytes are an undefined encoding, the step enters HardFault with
the address of the instruction as the return address (R145, R205, R428 causes [4], [5], [7], [8]). That the agents run
once before the core is the model's choice (notes/assumptions/35.md), and so is that return address where it is the
second halfword of the instruction that cannot be fetched (notes/assumptions/42.md). -/
def Obligations.StepRunsDecoded : Prop :=
  ∀ s : State,
    let u := s.ready
    s.noReset → u.lockup = false → u.sleep = .awake →
    (s.takeInput.1.takeException = false ∨ u.nextException = none) →
    (∀ (i : Instr) (rest : List Byte), u.thumb = true → decode u.codeBytes = .ok (i, rest) →
      (∀ k : Nat, k < i.length / 2 → u.fetchable (u.pc + BitVec.ofNat 32 (2 * k))) → step s = exec i u) ∧
    (u.instrFaults → u.mem.wf = true → -1 < u.executionPriority → u.canEnter 3 = true →
      ∃ t, step s = .next t ∧ Entered u t 3 u.pc)

/-- Every step keeps the invariant, from any state that has it. -/
def Obligations.StepKeepsInvariant : Prop := ∀ s t : State, s.inv = true → step s = .next t → t.inv = true

/-- The invariant holds after reset. -/
def Obligations.ResetInvariant : Prop := State.reset.inv = true

/-- What R110 and R500 state for reset: Thread mode on MSP, exceptions not masked, nothing enabled, pending or active, all
priorities 0, SCR and SYST_CSR 0, awake and not in lockup. -/
def Obligations.ResetState : Prop :=
  State.reset.ipsr = 0 ∧ State.reset.primask = false ∧ State.reset.readSpecial .control = 0 ∧
  State.reset.sp = State.reset.mainSp ∧ State.reset.nvic.enable = 0 ∧ State.reset.nvic.pending = 0 ∧
  State.reset.nvic.active = 0 ∧ (∀ n : Fin 8, State.reset.nvic.ipr[n] = 0) ∧ State.reset.scb.shpr2 = 0 ∧
  State.reset.scb.shpr3 = 0 ∧ State.reset.scrValue = 0 ∧ State.reset.systCsrValue = 0 ∧
  State.reset.sleep = .awake ∧ State.reset.lockup = false

/-- A reset of a running machine, whatever it was doing, with readable words at addresses 0 and 4 (R500, R503): MSP and
the PC come from them, every register the spec gives a value has it, and the read-only registers read as always.
A reset between two instructions, or one that SYSRESETREQ asked for, leaves memory unchanged; a reset inside an
instruction leaves unchanged every byte that the instruction does not store to (R404, R502).
That memory survives a reset is the model's choice (notes/assumptions/12.md), and so is the value of SYST_CALIB
(notes/assumptions/38.md). -/
def Obligations.ResetRestarts : Prop :=
  ∀ s : State,
    (s.scb.resetRequest = true ∨ s.takeInput.1.reset = .betweenInstructions →
      s.ordinary .read 0 4 = true → s.ordinary .read 4 4 = true →
      ∃ t, step s = .next t ∧ Restarted s t ∧ t.mem = s.mem) ∧
    (∀ u : State, s.scb.resetRequest = false → s.takeInput.1.reset = .insideInstruction → s.mem.wf = true →
      s.takeInput.2.proceed s.takeInput.1 = .next u → u.ordinary .read 0 4 = true → u.ordinary .read 4 4 = true →
      ∃ t, step s = .next t ∧ Restarted u t ∧
        ∀ k : Nat, (∀ a ∈ u.stored, a.toNat ≠ k) → t.mem.readByte k = s.mem.readByte k)

/-! ## Data processing -/

/-- The additions write the sum modulo 2^32 and all four flags of the exact sums (R12, R260, R261, R263, R264); CMN sets
the flags only (R302). -/
def Obligations.AdditionsSetFlags : Prop :=
  (∀ (s : State) (rd rn rm : LowReg), ∃ t, exec (.addsReg rd rn rm) s = .next t ∧
    let (a, b) := (s.readLow rn, s.readLow rm)
    WritesLow s t rd (a + b) ∧
    FlagsAre t.apsr (a + b) (decide (2 ^ 32 ≤ a.toNat + b.toNat)) (outOfRange (a.toInt + b.toInt))) ∧
  (∀ (s : State) (rd rn : LowReg) (imm3 : BitVec 3), ∃ t, exec (.addsImm3 rd rn imm3) s = .next t ∧
    let (a, b) := (s.readLow rn, imm3.setWidth 32)
    WritesLow s t rd (a + b) ∧
    FlagsAre t.apsr (a + b) (decide (2 ^ 32 ≤ a.toNat + b.toNat)) (outOfRange (a.toInt + b.toInt))) ∧
  (∀ (s : State) (rd : LowReg) (imm8 : BitVec 8), ∃ t, exec (.addsImm8 rd imm8) s = .next t ∧
    let (a, b) := (s.readLow rd, imm8.setWidth 32)
    WritesLow s t rd (a + b) ∧
    FlagsAre t.apsr (a + b) (decide (2 ^ 32 ≤ a.toNat + b.toNat)) (outOfRange (a.toInt + b.toInt))) ∧
  (∀ (s : State) (rd rm : LowReg), ∃ t, exec (.adcs rd rm) s = .next t ∧
    let (a, b, c) := (s.readLow rd, s.readLow rm, bitValue s.apsr.c)
    WritesLow s t rd (a + b + BitVec.ofNat 32 c) ∧
    FlagsAre t.apsr (a + b + BitVec.ofNat 32 c) (decide (2 ^ 32 ≤ a.toNat + b.toNat + c))
      (outOfRange (a.toInt + b.toInt + c))) ∧
  (∀ (s : State) (rn rm : LowReg), ∃ t, exec (.cmn rn rm) s = .next t ∧
    let (a, b) := (s.readLow rn, s.readLow rm)
    RegistersOnly s t 2 [] ∧
    FlagsAre t.apsr (a + b) (decide (2 ^ 32 ≤ a.toNat + b.toNat)) (outOfRange (a.toInt + b.toInt)))

/-- The subtractions write the difference modulo 2^32; C is set exactly when the unsigned subtraction does not borrow and V
when the signed difference is out of range (R12, R268 to R272); the comparisons set the flags only (R303, R304). -/
def Obligations.SubtractionsSetFlags : Prop :=
  (∀ (s : State) (rd rn rm : LowReg), ∃ t, exec (.subsReg rd rn rm) s = .next t ∧
    let (a, b) := (s.readLow rn, s.readLow rm)
    WritesLow s t rd (a - b) ∧
    FlagsAre t.apsr (a - b) (decide (b.toNat ≤ a.toNat)) (outOfRange (a.toInt - b.toInt))) ∧
  (∀ (s : State) (rd rn : LowReg) (imm3 : BitVec 3), ∃ t, exec (.subsImm3 rd rn imm3) s = .next t ∧
    let (a, b) := (s.readLow rn, imm3.setWidth 32)
    WritesLow s t rd (a - b) ∧
    FlagsAre t.apsr (a - b) (decide (b.toNat ≤ a.toNat)) (outOfRange (a.toInt - b.toInt))) ∧
  (∀ (s : State) (rd : LowReg) (imm8 : BitVec 8), ∃ t, exec (.subsImm8 rd imm8) s = .next t ∧
    let (a, b) := (s.readLow rd, imm8.setWidth 32)
    WritesLow s t rd (a - b) ∧
    FlagsAre t.apsr (a - b) (decide (b.toNat ≤ a.toNat)) (outOfRange (a.toInt - b.toInt))) ∧
  (∀ (s : State) (rd rm : LowReg), ∃ t, exec (.sbcs rd rm) s = .next t ∧
    let (a, b, w) := (s.readLow rd, s.readLow rm, 1 - bitValue s.apsr.c)
    WritesLow s t rd (a - b - BitVec.ofNat 32 w) ∧
    FlagsAre t.apsr (a - b - BitVec.ofNat 32 w) (decide (b.toNat + w ≤ a.toNat))
      (outOfRange (a.toInt - b.toInt - w))) ∧
  (∀ (s : State) (rd rn : LowReg), ∃ t, exec (.rsbs rd rn) s = .next t ∧
    let b := s.readLow rn
    WritesLow s t rd (0 - b) ∧ FlagsAre t.apsr (0 - b) (decide (b.toNat = 0)) (outOfRange (0 - b.toInt))) ∧
  (∀ (s : State) (rn rm : LowReg), ∃ t, exec (.cmpLow rn rm) s = .next t ∧
    let (a, b) := (s.readLow rn, s.readLow rm)
    RegistersOnly s t 2 [] ∧
    FlagsAre t.apsr (a - b) (decide (b.toNat ≤ a.toNat)) (outOfRange (a.toInt - b.toInt))) ∧
  (∀ (s : State) (rn : LowReg) (imm8 : BitVec 8), ∃ t, exec (.cmpImm rn imm8) s = .next t ∧
    let (a, b) := (s.readLow rn, imm8.setWidth 32)
    RegistersOnly s t 2 [] ∧
    FlagsAre t.apsr (a - b) (decide (b.toNat ≤ a.toNat)) (outOfRange (a.toInt - b.toInt))) ∧
  (∀ (s : State) (rn rm : Reg), (Instr.cmpHigh rn rm).wellFormed = true → ∃ t, exec (.cmpHigh rn rm) s = .next t ∧
    let (a, b) := (s.readReg rn, s.readReg rm)
    RegistersOnly s t 2 [] ∧
    FlagsAre t.apsr (a - b) (decide (b.toNat ≤ a.toNat)) (outOfRange (a.toInt - b.toInt)))

/-- The bitwise operations, moves and MULS write their result and set N and Z from it, with C and V kept; TST sets the
flags only (R275 to R278, R307 to R309, R312, R322). -/
def Obligations.LogicSetsNegativeAndZero : Prop :=
  let keeps (s t : State) (r : Word) := FlagsAre t.apsr r s.apsr.c s.apsr.v
  ∀ (s : State) (rd rm : LowReg),
    let (a, b) := (s.readLow rd, s.readLow rm)
    (∃ t r, exec (.ands rd rm) s = .next t ∧ WritesLow s t rd r ∧ keeps s t r ∧
      ∀ i : Nat, r.getLsbD i = (a.getLsbD i && b.getLsbD i)) ∧
    (∃ t r, exec (.orrs rd rm) s = .next t ∧ WritesLow s t rd r ∧ keeps s t r ∧
      ∀ i : Nat, r.getLsbD i = (a.getLsbD i || b.getLsbD i)) ∧
    (∃ t r, exec (.eors rd rm) s = .next t ∧ WritesLow s t rd r ∧ keeps s t r ∧
      ∀ i : Nat, r.getLsbD i = (a.getLsbD i != b.getLsbD i)) ∧
    (∃ t r, exec (.bics rd rm) s = .next t ∧ WritesLow s t rd r ∧ keeps s t r ∧
      ∀ i : Nat, r.getLsbD i = (a.getLsbD i && !b.getLsbD i)) ∧
    (∃ t r, exec (.mvns rd rm) s = .next t ∧ WritesLow s t rd r ∧ keeps s t r ∧
      ∀ i : Nat, i < 32 → r.getLsbD i = !b.getLsbD i) ∧
    (∃ t, exec (.movsReg rd rm) s = .next t ∧ WritesLow s t rd b ∧ keeps s t b) ∧
    (∀ imm8 : BitVec 8, ∃ t, exec (.movsImm rd imm8) s = .next t ∧ WritesLow s t rd (imm8.setWidth 32) ∧
      t.apsr.n = false ∧ t.apsr.z = decide (imm8.toNat = 0) ∧ t.apsr.c = s.apsr.c ∧ t.apsr.v = s.apsr.v) ∧
    (∃ t r, exec (.muls rd rm) s = .next t ∧ WritesLow s t rd r ∧ keeps s t r ∧
      r.toNat = b.toNat * a.toNat % 2 ^ 32) ∧
    (∃ t r, exec (.tst rd rm) s = .next t ∧ RegistersOnly s t 2 [] ∧ keeps s t r ∧
      ∀ i : Nat, r.getLsbD i = (a.getLsbD i && b.getLsbD i))

/-- The immediate shifts: the result as multiplication or division by a power of two, N and Z from it, C the last bit
shifted out and V kept; a zero field means 32 for the right shifts (R16 to R18, R282, R284, R286). -/
def Obligations.ImmediateShifts : Prop :=
  (∀ (s : State) (rd rm : LowReg) (imm5 : BitVec 5), imm5 ≠ 0 → ∃ t r, exec (.lslsImm rd rm imm5) s = .next t ∧
    r.toNat = (s.readLow rm).toNat * 2 ^ imm5.toNat % 2 ^ 32 ∧ WritesLow s t rd r ∧
    FlagsAre t.apsr r ((s.readLow rm).getLsbD (32 - imm5.toNat)) s.apsr.v) ∧
  (∀ (s : State) (rd rm : LowReg) (imm5 : BitVec 5), ∃ t r, exec (.lsrsImm rd rm imm5) s = .next t ∧
    let n := if imm5.toNat = 0 then 32 else imm5.toNat
    r.toNat = (s.readLow rm).toNat / 2 ^ n ∧ WritesLow s t rd r ∧
    FlagsAre t.apsr r ((s.readLow rm).getLsbD (n - 1)) s.apsr.v) ∧
  (∀ (s : State) (rd rm : LowReg) (imm5 : BitVec 5), ∃ t r, exec (.asrsImm rd rm imm5) s = .next t ∧
    let n := if imm5.toNat = 0 then 32 else imm5.toNat
    r.toInt = (s.readLow rm).toInt / 2 ^ n ∧ WritesLow s t rd r ∧
    FlagsAre t.apsr r ((s.readLow rm).getLsbD (n - 1)) s.apsr.v)

/-- The shifts by a register: the length is the low byte of Rs, a length of 0 keeps C, and every length up to 255 has the
result of R16 to R19 (R280, R283, R285, R287, R288). -/
def Obligations.RegisterShifts : Prop :=
  ∀ (s : State) (rd rs : LowReg),
    let v := s.readLow rd
    let n := (s.readLow rs).toNat % 256
    let carry (c : Bool) := if n = 0 then s.apsr.c else c
    (∃ t r, exec (.lslsReg rd rs) s = .next t ∧ r.toNat = v.toNat * 2 ^ n % 2 ^ 32 ∧ WritesLow s t rd r ∧
      FlagsAre t.apsr r (carry (decide (n ≤ 32) && v.getLsbD (32 - n))) s.apsr.v) ∧
    (∃ t r, exec (.lsrsReg rd rs) s = .next t ∧ r.toNat = v.toNat / 2 ^ n ∧ WritesLow s t rd r ∧
      FlagsAre t.apsr r (carry (v.getLsbD (n - 1))) s.apsr.v) ∧
    (∃ t r, exec (.asrsReg rd rs) s = .next t ∧ r.toInt = v.toInt / 2 ^ n ∧ WritesLow s t rd r ∧
      FlagsAre t.apsr r (carry (v.getLsbD (min n 32 - 1))) s.apsr.v) ∧
    (∃ t r, exec (.rors rd rs) s = .next t ∧ (∀ i : Nat, i < 32 → r.getLsbD i = v.getLsbD ((i + n) % 32)) ∧
      WritesLow s t rd r ∧ FlagsAre t.apsr r (carry (v.getLsbD ((n + 31) % 32))) s.apsr.v)

/-- The extensions and byte reversals, with every flag kept (R314 to R316, R318 to R321). -/
def Obligations.ExtensionsAndReversals : Prop :=
  ∀ (s : State) (rd rm : LowReg),
    let v := s.readLow rm
    let byte (k : Nat) := v.toNat / 256 ^ k % 256
    let half := byte 0 * 256 + byte 1
    (∃ t r, exec (.sxtb rd rm) s = .next t ∧ WritesLow s t rd r ∧ t.apsr = s.apsr ∧
      r.toInt = if byte 0 < 128 then (byte 0 : Int) else byte 0 - 256) ∧
    (∃ t r, exec (.sxth rd rm) s = .next t ∧ WritesLow s t rd r ∧ t.apsr = s.apsr ∧
      r.toInt = if v.toNat % 65536 < 32768 then (v.toNat % 65536 : Int) else v.toNat % 65536 - 65536) ∧
    (∃ t r, exec (.uxtb rd rm) s = .next t ∧ WritesLow s t rd r ∧ t.apsr = s.apsr ∧ r.toNat = byte 0) ∧
    (∃ t r, exec (.uxth rd rm) s = .next t ∧ WritesLow s t rd r ∧ t.apsr = s.apsr ∧ r.toNat = v.toNat % 65536) ∧
    (∃ t r, exec (.rev rd rm) s = .next t ∧ WritesLow s t rd r ∧ t.apsr = s.apsr ∧
      r.toNat = byte 0 * 256 ^ 3 + byte 1 * 256 ^ 2 + byte 2 * 256 + byte 3) ∧
    (∃ t r, exec (.rev16 rd rm) s = .next t ∧ WritesLow s t rd r ∧ t.apsr = s.apsr ∧
      r.toNat = byte 2 * 256 ^ 3 + byte 3 * 256 ^ 2 + byte 0 * 256 + byte 1) ∧
    (∃ t r, exec (.revsh rd rm) s = .next t ∧ WritesLow s t rd r ∧ t.apsr = s.apsr ∧
      r.toInt = if half < 32768 then (half : Int) else half - 65536)

/-- MOV and ADD without flags on any registers: SP drops bits [1:0] of what it is given, and a PC destination is a branch
that drops bit [0] and keeps EPSR.T; the PC as a source reads as the instruction's address plus 4 (R262, R306, R35,
R20). -/
def Obligations.HighRegisterMoves : Prop :=
  let written (r : Reg) (v : Word) := if r = 13 then v &&& 0xFFFFFFFC else v
  ∀ (s : State) (rd rm : Reg),
    let v := s.readReg rm
    s.readReg 15 = s.pc + 4 ∧
    (∃ t, exec (.movHigh rd rm) s = .next t ∧ t.apsr = s.apsr ∧
      if rd = 15 then t.pc = v &&& 0xFFFFFFFE ∧ KeepsRegisters s t [] ∧ KeepsSystem s t ∧ KeepsMemory s t
      else t.readReg rd = written rd v ∧ RegistersOnly s t 2 [rd]) ∧
    (¬(rd = 15 ∧ rm = 15) → ∃ t, exec (.addHigh rd rm) s = .next t ∧ t.apsr = s.apsr ∧
      if rd = 15 then t.pc = (s.pc + 4 + v) &&& 0xFFFFFFFE ∧ KeepsRegisters s t [] ∧ KeepsSystem s t ∧ KeepsMemory s t
      else t.readReg rd = written rd (s.readReg rd + v) ∧ RegistersOnly s t 2 [rd])

/-- The address-forming instructions and the stack pointer adjustments, flags kept (R231, R265, R266, R273). -/
def Obligations.AddressArithmetic : Prop :=
  (∀ (s : State) (rd : LowReg) (imm8 : BitVec 8), ∃ t, exec (.adr rd imm8) s = .next t ∧ t.apsr = s.apsr ∧
    WritesLow s t rd (BitVec.ofNat 32 ((s.pc + 4).toNat / 4 * 4 + imm8.toNat * 4))) ∧
  (∀ (s : State) (rd : LowReg) (imm8 : BitVec 8), ∃ t, exec (.addRdSp rd imm8) s = .next t ∧ t.apsr = s.apsr ∧
    WritesLow s t rd (s.sp + BitVec.ofNat 32 (imm8.toNat * 4))) ∧
  (∀ (s : State) (imm7 : BitVec 7), ∃ t, exec (.addSp imm7) s = .next t ∧ t.apsr = s.apsr ∧
    t.sp = s.sp + BitVec.ofNat 32 (imm7.toNat * 4) ∧ RegistersOnly s t 2 [13]) ∧
  (∀ (s : State) (imm7 : BitVec 7), ∃ t, exec (.subSp imm7) s = .next t ∧ t.apsr = s.apsr ∧
    t.sp = s.sp - BitVec.ofNat 32 (imm7.toNat * 4) ∧ RegistersOnly s t 2 [13])

/-! ## Single loads and stores -/

/-- The word loads. From memory, the destination gets the little-endian number at the address, and nothing else changes
(R232, R233, R240, R248, R132). From an aligned address of the Private Peripheral Bus, the destination gets the word that
the read of the register there answers, and the read's own effect on the register happens (R142): only SYST_CSR, at
0xE000E010, has one.
That an address with no register answers an open word is the model's choice (D28, notes/assumptions/24.md). -/
def Obligations.WordLoads : Prop :=
  ∀ (s : State) (i : Instr) (rt : LowReg) (a : Word),
    ((∃ rn imm5, i = .ldrImm rt rn imm5 ∧ a = s.readLow rn + BitVec.ofNat 32 (imm5.toNat * 4)) ∨
      (∃ imm8, i = .ldrSp rt imm8 ∧ a = s.sp + BitVec.ofNat 32 (imm8.toNat * 4)) ∨
      (∃ rn rm, i = .ldrReg rt rn rm ∧ a = s.readLow rn + s.readLow rm) ∨
      (∃ imm8, i = .ldrLit rt imm8 ∧ a = BitVec.ofNat 32 ((s.pc + 4).toNat / 4 * 4 + imm8.toNat * 4))) →
    (s.ordinary .read a 4 = true →
      ∃ t, exec i s = .next t ∧ t.apsr = s.apsr ∧ WritesLow s t rt (BitVec.ofNat 32 (s.number a 4))) ∧
    (a.toNat % 4 = 0 → inPpb a = true →
      ∃ v u t, s.loadWord a = .ok (v, u) ∧ exec i s = .next t ∧ t.apsr = s.apsr ∧ WritesLow u t rt v ∧
        u = { s with systick := u.systick, freeIndex := u.freeIndex } ∧
        (a ≠ 0xE000E010 → t.systick = s.systick) ∧
        (a = 0xE000E010 → t.systick = { s.systick with countFlag := false }))

/-- The halfword and byte loads from memory: zero-extended or sign-extended to 32 bits, nothing else changes (R236,
R237, R241 to R244). -/
def Obligations.NarrowLoads : Prop :=
  ∀ (s : State) (i : Instr) (rt : LowReg) (a : Word) (n : Nat) (signed : Bool),
    ((∃ rn imm5, i = .ldrbImm rt rn imm5 ∧ a = s.readLow rn + BitVec.ofNat 32 imm5.toNat ∧ n = 1 ∧ signed = false) ∨
      (∃ rn imm5, i = .ldrhImm rt rn imm5 ∧ a = s.readLow rn + BitVec.ofNat 32 (imm5.toNat * 2) ∧ n = 2 ∧
        signed = false) ∨
      (∃ rn rm, i = .ldrbReg rt rn rm ∧ a = s.readLow rn + s.readLow rm ∧ n = 1 ∧ signed = false) ∨
      (∃ rn rm, i = .ldrhReg rt rn rm ∧ a = s.readLow rn + s.readLow rm ∧ n = 2 ∧ signed = false) ∨
      (∃ rn rm, i = .ldrsbReg rt rn rm ∧ a = s.readLow rn + s.readLow rm ∧ n = 1 ∧ signed = true) ∨
      (∃ rn rm, i = .ldrshReg rt rn rm ∧ a = s.readLow rn + s.readLow rm ∧ n = 2 ∧ signed = true)) →
    s.ordinary .read a n = true →
    ∃ t, exec i s = .next t ∧ t.apsr = s.apsr ∧
      WritesLow s t rt (BitVec.ofInt 32
        (if signed = true ∧ 256 ^ n ≤ 2 * s.number a n then (s.number a n : Int) - 256 ^ n else s.number a n))

/-- The word stores. To memory, the four bytes at the address hold the register, least significant first, and nothing else
changes (R234, R235, R245). To an aligned address of the Private Peripheral Bus, the instruction ends in the state that
the write of the register there gives, with the PC advanced: no core register and no byte of memory changes (R142); a
write of 1 to VECTCLRACTIVE with AIRCR's key stops by name.
That an address with no register ignores the write, and that stop, are the model's choices (D28, notes/assumptions/24.md,
notes/assumptions/21.md). -/
def Obligations.WordStores : Prop :=
  ∀ (s : State) (i : Instr) (rt : LowReg) (a : Word),
    ((∃ rn imm5, i = .strImm rt rn imm5 ∧ a = s.readLow rn + BitVec.ofNat 32 (imm5.toNat * 4)) ∨
      (∃ imm8, i = .strSp rt imm8 ∧ a = s.sp + BitVec.ofNat 32 (imm8.toNat * 4)) ∨
      (∃ rn rm, i = .strReg rt rn rm ∧ a = s.readLow rn + s.readLow rm)) →
    let v := s.readLow rt
    let stops := a = 0xE000ED0C ∧ v.toNat / 65536 = 0x05FA ∧ v.getLsbD 1 = true
    (s.mem.wf = true → s.ordinary .write a 4 = true →
      ∃ t, exec i s = .next t ∧ t.pc = s.pc + 2 ∧ t.apsr = s.apsr ∧ t.number a 4 = v.toNat ∧
        KeepsRegisters s t [] ∧ KeepsSystem s t ∧ KeepsMemoryOutside s t a 4) ∧
    (a.toNat % 4 = 0 → inPpb a = true → ¬stops →
      ∃ u, s.storeWord a v = .ok u ∧ exec i s = .next { u with pc := s.pc + 2 } ∧
        u = { s with nvic := u.nvic, scb := u.scb, systick := u.systick, event := u.event, freeIndex := u.freeIndex }) ∧
    (stops → exec i s = .fault .vectClrActive)

/-- The halfword and byte stores to memory: the bytes at the address hold the low part of the register, and nothing else
changes (R238, R239, R246, R247). -/
def Obligations.NarrowStores : Prop :=
  ∀ (s : State) (i : Instr) (rt : LowReg) (a : Word) (n : Nat), s.mem.wf = true →
    ((∃ rn imm5, i = .strbImm rt rn imm5 ∧ a = s.readLow rn + BitVec.ofNat 32 imm5.toNat ∧ n = 1) ∨
      (∃ rn imm5, i = .strhImm rt rn imm5 ∧ a = s.readLow rn + BitVec.ofNat 32 (imm5.toNat * 2) ∧ n = 2) ∨
      (∃ rn rm, i = .strbReg rt rn rm ∧ a = s.readLow rn + s.readLow rm ∧ n = 1) ∨
      (∃ rn rm, i = .strhReg rt rn rm ∧ a = s.readLow rn + s.readLow rm ∧ n = 2)) →
    s.ordinary .write a n = true →
    ∃ t, exec i s = .next t ∧ t.pc = s.pc + 2 ∧ t.apsr = s.apsr ∧
      t.number a n = (s.readLow rt).toNat % 256 ^ n ∧
      KeepsRegisters s t [] ∧ KeepsSystem s t ∧ KeepsMemoryOutside s t a n

/-- A load or store to an address that is not a multiple of its size enters HardFault with its own address as the return
address and makes no access (R135, R428 cause [9]); LDM and STM check their base (R136). -/
def Obligations.UnalignedAccessFaults : Prop :=
  ∀ (s : State) (i : Instr),
    ((∃ rt rn imm5, (i = .ldrImm rt rn imm5 ∨ i = .strImm rt rn imm5) ∧
        (s.readLow rn + BitVec.ofNat 32 (imm5.toNat * 4)).toNat % 4 ≠ 0) ∨
      (∃ rt rn imm5, (i = .ldrhImm rt rn imm5 ∨ i = .strhImm rt rn imm5) ∧
        (s.readLow rn + BitVec.ofNat 32 (imm5.toNat * 2)).toNat % 2 ≠ 0) ∨
      (∃ rt rn rm, (i = .ldrReg rt rn rm ∨ i = .strReg rt rn rm) ∧
        (s.readLow rn + s.readLow rm).toNat % 4 ≠ 0) ∨
      (∃ rt rn rm, (i = .ldrhReg rt rn rm ∨ i = .ldrshReg rt rn rm ∨ i = .strhReg rt rn rm) ∧
        (s.readLow rn + s.readLow rm).toNat % 2 ≠ 0) ∨
      (∃ rn list, i = .ldm rn list ∧ list ≠ 0 ∧ (s.readLow rn).toNat % 4 ≠ 0) ∨
      (∃ rn list, i = .stm rn list ∧ list ≠ 0 ∧ (s.readLow rn).toNat % 4 ≠ 0)) →
    s.mem.wf = true → -1 < s.executionPriority → s.canEnter 3 = true →
    ∃ t, exec i s = .next t ∧ Entered s t 3 s.pc

/-- A load or store to an address at which nothing answers enters HardFault with its own address as the return address
(R138, R428 cause [3]), as a misaligned one does (R135, cause [9]), and so does LDM, STM, PUSH or POP when nothing answers at some word of its transfer, with
old or new values left by the part that was made (D9, notes/assumptions/11.md).
That a byte or halfword access to the Private Peripheral Bus does the same is the model's choice (R141, D12,
notes/assumptions/23.md). -/
def Obligations.BusErrorFaults : Prop :=
  ∀ s : State, s.mem.wf = true → -1 < s.executionPriority → s.canEnter 3 = true →
    (∀ (i : Instr) (kind : AccessKind) (a : Word) (n : Nat), SingleAccess s i kind a n → s.accessFaults kind a n →
      ∃ t, exec i s = .next t ∧ Entered s t 3 s.pc) ∧
    (∀ (i : Instr) (kind : AccessKind) (base : Word) (rs : List Reg), MultipleAccess s i kind base rs →
      aligned base 4 = true → s.transferFaults kind base rs.length →
      ∃ p t, exec i s = .next t ∧ StoppedTransfer s p i kind base rs ∧ Entered p t 3 s.pc)

/-! ## Multiple loads and stores -/

/-- LDM from memory: each register of the list gets the word at 4 times its place in the list, and the base is written
back exactly when it is not in the list (R249, R140). -/
def Obligations.LdmLoads : Prop :=
  ∀ (s : State) (rn : LowReg) (list : BitVec 8), list ≠ 0 →
    let rs := registersOf list
    let base := s.readLow rn
    s.ordinaryWords .read base rs.length = true →
    ∃ t, exec (.ldm rn list) s = .next t ∧ t.apsr = s.apsr ∧
      (∀ r : LowReg, list.getLsbD r.val = true →
        (t.readLow r).toNat =
          s.number (base + BitVec.ofNat 32 (4 * (rs.filter (fun q => decide (q.val < r.val))).length)) 4) ∧
      (list.getLsbD rn.val = false → t.readLow rn = base + BitVec.ofNat 32 (4 * rs.length)) ∧
      RegistersOnly s t 2 (rn.toReg :: rs.map LowReg.toReg)

/-- STM to memory, with the base absent from the list or its lowest register: the registers of the list lie in rising
order from the base on, and the base is written back (R250). -/
def Obligations.StmStores : Prop :=
  ∀ (s : State) (rn : LowReg) (list : BitVec 8), list ≠ 0 →
    (list.getLsbD rn.val = true → ∀ r : LowReg, r.val < rn.val → list.getLsbD r.val = false) →
    let rs := registersOf list
    let base := s.readLow rn
    s.mem.wf = true → s.ordinaryWords .write base rs.length = true →
    ∃ t, exec (.stm rn list) s = .next t ∧ t.apsr = s.apsr ∧ t.pc = s.pc + 2 ∧
      (∀ r : LowReg, list.getLsbD r.val = true →
        t.number (base + BitVec.ofNat 32 (4 * (rs.filter (fun q => decide (q.val < r.val))).length)) 4 =
          (s.readLow r).toNat) ∧
      t.readLow rn = base + BitVec.ofNat 32 (4 * rs.length) ∧
      KeepsRegisters s t [rn.toReg] ∧ KeepsSystem s t ∧ KeepsMemoryOutside s t base (4 * rs.length)

/-- STM with the base in the list but not its lowest register: the word stored for the base is open (U1), every other
effect is that of R250. -/
def Obligations.StmBaseNotLowest : Prop :=
  ∀ (s : State) (rn r0 : LowReg) (list : BitVec 8), list.getLsbD rn.val = true → list.getLsbD r0.val = true →
    r0.val < rn.val →
    let rs := registersOf list
    let base := s.readLow rn
    s.mem.wf = true → s.ordinaryWords .write base rs.length = true →
    ∃ t, exec (.stm rn list) s = .next t ∧ t.apsr = s.apsr ∧ t.pc = s.pc + 2 ∧
      (∀ r : LowReg, list.getLsbD r.val = true → r ≠ rn →
        t.number (base + BitVec.ofNat 32 (4 * (rs.filter (fun q => decide (q.val < r.val))).length)) 4 =
          (s.readLow r).toNat) ∧
      t.readLow rn = base + BitVec.ofNat 32 (4 * rs.length) ∧
      KeepsRegisters s t [rn.toReg] ∧ KeepsSystem s t ∧ KeepsMemoryOutside s t base (4 * rs.length)

/-- PUSH to memory: the low registers in rising order, then LR, from the new stack pointer up; the current stack pointer
moves down by 4 times their number and nothing else changes (R251). -/
def Obligations.PushStores : Prop :=
  ∀ (s : State) (lr : Bool) (list : BitVec 8), (Instr.push lr list).wellFormed = true →
    let rs := registersOf list
    let count := rs.length + bitValue lr
    let base := s.sp - BitVec.ofNat 32 (4 * count)
    s.mem.wf = true → s.ordinaryWords .write base count = true →
    ∃ t, exec (.push lr list) s = .next t ∧ t.apsr = s.apsr ∧ t.pc = s.pc + 2 ∧ t.sp = base ∧
      (∀ r : LowReg, list.getLsbD r.val = true →
        t.number (base + BitVec.ofNat 32 (4 * (rs.filter (fun q => decide (q.val < r.val))).length)) 4 =
          (s.readLow r).toNat) ∧
      (lr = true → t.number (base + BitVec.ofNat 32 (4 * rs.length)) 4 = s.lr.toNat) ∧
      KeepsRegisters s t [13] ∧ KeepsSystem s t ∧ KeepsMemoryOutside s t base (4 * count)

/-- POP from memory: the low registers from the stack pointer up, and the current stack pointer past them. With PC in the
list the word above them is the target: EPSR.T gets its bit [0] and the PC the rest, unless it is an EXC_RETURN value in
Handler mode (R252, R11). -/
def Obligations.PopLoads : Prop :=
  ∀ (s : State) (pc : Bool) (list : BitVec 8), (Instr.pop pc list).wellFormed = true →
    let rs := registersOf list
    let count := rs.length + bitValue pc
    let target := s.number (s.sp + BitVec.ofNat 32 (4 * rs.length)) 4
    s.ordinaryWords .read s.sp count = true →
    (pc = true → s.handlerMode = true → target / 16 ≠ 0xFFFFFFF) →
    ∃ t, exec (.pop pc list) s = .next t ∧ t.apsr = s.apsr ∧
      t.sp = s.sp + BitVec.ofNat 32 (4 * count) ∧
      (∀ r : LowReg, list.getLsbD r.val = true →
        (t.readLow r).toNat =
          s.number (s.sp + BitVec.ofNat 32 (4 * (rs.filter (fun q => decide (q.val < r.val))).length)) 4) ∧
      KeepsRegisters s t (13 :: rs.map LowReg.toReg) ∧ KeepsMemory s t ∧
      (if pc then t.pc.toNat = target / 2 * 2 ∧ t.thumb = decide (target % 2 = 1) ∧
          KeepsSystem { s with thumb := t.thumb } t
        else t.pc = s.pc + 2 ∧ KeepsSystem s t)

/-! ## Branches -/

/-- B, B<cond> and BL: the target is the instruction's address plus 4 plus the signed offset, without bit [0]; a
condition that fails goes on; BL links the address after it with bit [0] set (R330, R331, R333, R15). -/
def Obligations.DirectBranches : Prop :=
  (∀ (s : State) (imm11 : BitVec 11), ∃ t, exec (.b imm11) s = .next t ∧ t.apsr = s.apsr ∧
    t.pc = (s.pc + 4 + BitVec.ofInt 32 (imm11.toInt * 2)) &&& 0xFFFFFFFE ∧
    KeepsRegisters s t [] ∧ KeepsSystem s t ∧ KeepsMemory s t) ∧
  (∀ (s : State) (c : Cond) (imm8 : BitVec 8), ∃ t, exec (.bCond c imm8) s = .next t ∧ t.apsr = s.apsr ∧
    let f := s.apsr
    let passed : Prop := match c with
      | .eq => f.z = true
      | .ne => f.z = false
      | .cs => f.c = true
      | .cc => f.c = false
      | .mi => f.n = true
      | .pl => f.n = false
      | .vs => f.v = true
      | .vc => f.v = false
      | .hi => f.c = true ∧ f.z = false
      | .ls => f.c = false ∨ f.z = true
      | .ge => f.n = f.v
      | .lt => f.n ≠ f.v
      | .gt => f.z = false ∧ f.n = f.v
      | .le => f.z = true ∨ f.n ≠ f.v
    (passed → t.pc = (s.pc + 4 + BitVec.ofInt 32 (imm8.toInt * 2)) &&& 0xFFFFFFFE) ∧
    (¬passed → t.pc = s.pc + 2) ∧ KeepsRegisters s t [] ∧ KeepsSystem s t ∧ KeepsMemory s t) ∧
  (∀ (s : State) (off24 : BitVec 24), ∃ t, exec (.bl off24) s = .next t ∧ t.apsr = s.apsr ∧
    t.pc = (s.pc + 4 + BitVec.ofInt 32 (off24.toInt * 2)) &&& 0xFFFFFFFE ∧ t.lr = (s.pc + 4) ||| 1 ∧
    KeepsRegisters s t [14] ∧ KeepsSystem s t ∧ KeepsMemory s t)

/-- BX and BLX: EPSR.T gets bit [0] of the register and the PC the rest; BLX reads its target before it links the address
after it; BX of an EXC_RETURN value in Handler mode is left to ExceptionReturns (R334, R335). -/
def Obligations.IndirectBranches : Prop :=
  ∀ (s : State) (rm : Reg), rm ≠ 13 → rm ≠ 15 →
    let v := s.readReg rm
    (¬(s.handlerMode = true ∧ v.toNat / 16 = 0xFFFFFFF) → ∃ t, exec (.bx rm) s = .next t ∧ t.apsr = s.apsr ∧
      t.pc.toNat = v.toNat / 2 * 2 ∧ t.thumb = decide (v.toNat % 2 = 1) ∧
      KeepsRegisters s t [] ∧ KeepsSystem { s with thumb := t.thumb } t ∧ KeepsMemory s t) ∧
    (∃ t, exec (.blx rm) s = .next t ∧ t.apsr = s.apsr ∧ t.lr = (s.pc + 2) ||| 1 ∧
      t.pc.toNat = v.toNat / 2 * 2 ∧ t.thumb = decide (v.toNat % 2 = 1) ∧
      KeepsRegisters s t [14] ∧ KeepsSystem { s with thumb := t.thumb } t ∧ KeepsMemory s t)

/-! ## Miscellaneous instructions -/

/-- NOP, YIELD and the barriers only advance the PC; SEV also sets the event register; CPSIE and CPSID clear and set
PRIMASK (R356, R360 to R362, R368, R369, R376). Every barrier option is the full barrier (R199). -/
def Obligations.HintsAndBarriers : Prop :=
  ∀ (s : State) (option : BitVec 4),
    (∀ i ∈ [Instr.nop, .yield], ∃ t, exec i s = .next t ∧ t.apsr = s.apsr ∧ RegistersOnly s t 2 []) ∧
    (∀ i ∈ [Instr.dsb option, .dmb option, .isb option],
      ∃ t, exec i s = .next t ∧ t.apsr = s.apsr ∧ RegistersOnly s t 4 []) ∧
    (∃ t, exec .sev s = .next t ∧ t.apsr = s.apsr ∧ t.event = true ∧
      RegistersOnly { s with event := true } t 2 []) ∧
    (∃ t, exec .cpsie s = .next t ∧ t.apsr = s.apsr ∧ t.primask = false ∧
      RegistersOnly { s with primask := false } t 2 []) ∧
    (∃ t, exec .cpsid s = .next t ∧ t.apsr = s.apsr ∧ t.primask = true ∧
      RegistersOnly { s with primask := true } t 2 [])

/-- MRS: the destination gets the flags in bits [31:28] and the exception number in bits [5:0] where the name includes
them, MSP, PSP, PRIMASK or CONTROL; EPSR bits read as zero, and CONTROL reads as zero in Handler mode (R364, R41 to
R46). -/
def Obligations.MrsReads : Prop :=
  ∀ (s : State) (rd : Reg) (spec : SpecReg), rd ≠ 13 → rd ≠ 15 →
    let flags := 2 ^ 31 * bitValue s.apsr.n + 2 ^ 30 * bitValue s.apsr.z + 2 ^ 29 * bitValue s.apsr.c
      + 2 ^ 28 * bitValue s.apsr.v
    ∃ t, exec (.mrs rd spec) s = .next t ∧ t.apsr = s.apsr ∧ RegistersOnly s t 4 [rd] ∧
      (t.readReg rd).toNat = match spec with
        | .apsr | .eapsr => flags
        | .iapsr | .psr => flags + s.ipsr.toNat
        | .ipsr | .iepsr => s.ipsr.toNat
        | .epsr => 0
        | .msp => s.msp.toNat / 4 * 4
        | .psp => s.psp.toNat / 4 * 4
        | .primask => bitValue s.primask
        | .control => if s.ipsr.toNat = 0 then 2 * bitValue s.spsel else 0

/-- MSR: the four names with the APSR write the flags from bits [31:28], MSP and PSP drop bits [1:0], PRIMASK gets bit
[0], CONTROL gets bit [1] in Thread mode only, and IPSR, EPSR and IEPSR ignore the write; nothing else changes (R366, R41,
R42, R46). -/
def Obligations.MsrWrites : Prop :=
  ∀ (s : State) (spec : SpecReg) (rn : Reg), rn ≠ 13 → rn ≠ 15 →
    let v := s.readReg rn
    ∃ t, exec (.msr spec rn) s = .next t ∧ t.pc = s.pc + 4 ∧ t.regs = s.regs ∧ t.lr = s.lr ∧ KeepsMemory s t ∧
      (match spec with
        | .apsr | .iapsr | .eapsr | .psr =>
          t.apsr = { n := v.getLsbD 31, z := v.getLsbD 30, c := v.getLsbD 29, v := v.getLsbD 28 }
        | .ipsr | .epsr | .iepsr | .msp | .psp | .primask | .control => t.apsr = s.apsr) ∧
      (t.msp = if spec = .msp then v &&& 0xFFFFFFFC else s.msp) ∧
      (t.psp = if spec = .psp then v &&& 0xFFFFFFFC else s.psp) ∧
      (t.primask = if spec = .primask then v.getLsbD 0 else s.primask) ∧
      (t.spsel = if spec = .control ∧ s.handlerMode = false then v.getLsbD 1 else s.spsel) ∧
      KeepsSystem { s with primask := t.primask, spsel := t.spsel } t

/-- WFI: it goes on when an enabled pending exception would be taken but for PRIMASK, else the processor sleeps with the
PC after the WFI (R373, R480, R92). -/
def Obligations.WfiSleeps : Prop :=
  ∀ s : State, ∃ t, exec .wfi s = .next t ∧ t.apsr = s.apsr ∧ t.pc = s.pc + 2 ∧ KeepsRegisters s t [] ∧
    KeepsMemory s t ∧ KeepsSystem { s with sleep := t.sleep } t ∧
    ((∃ e ∈ exceptionNumbers, s.isPending e = true ∧ s.isEnabled e = true ∧
        (∀ a ∈ exceptionNumbers, s.isActive a = true → s.priority e < s.priority a) ∧ s.priority e < 256) →
      t.sleep = s.sleep) ∧
    ((¬∃ e ∈ exceptionNumbers, s.isPending e = true ∧ s.isEnabled e = true ∧
        (∀ a ∈ exceptionNumbers, s.isActive a = true → s.priority e < s.priority a) ∧ s.priority e < 256) →
      t.sleep = .asleep .interrupt s.scb.sleepDeep)

/-- WFE under each of the three readings of D4 (notes/assumptions/2.md): it only advances; it clears a set event register
or sleeps; or it enters HardFault (R372).
Whichever holds, it answers a next state where HardFault could be entered. -/
def Obligations.WfeReadings : Prop :=
  ∀ s : State,
    (Config.wfeReading s.freeIndex = .nop → ∃ t, exec .wfe s = .next t ∧ t.apsr = s.apsr ∧ RegistersOnly s t 2 []) ∧
    (Config.wfeReading s.freeIndex = .generic → ∃ t, exec .wfe s = .next t ∧ t.apsr = s.apsr ∧
      t.event = false ∧ t.sleep = (if s.event then s.sleep else .asleep .event s.scb.sleepDeep) ∧
      RegistersOnly { s with event := t.event, sleep := t.sleep } t 2 []) ∧
    (Config.wfeReading s.freeIndex = .fault → s.mem.wf = true → -1 < s.executionPriority → s.canEnter 3 = true →
      ∃ t, exec .wfe s = .next t ∧ Entered s t 3 s.pc) ∧
    (s.mem.wf = true → -1 < s.executionPriority → s.canEnter 3 = true → ∃ t, exec .wfe s = .next t ∧ t.lockup = s.lockup)

/-- SVC at a priority lower than SVCall enters exception 11 with the address after it as the return address (R370). -/
def Obligations.SvcEntersSvCall : Prop :=
  ∀ (s : State) (imm8 : BitVec 8), s.mem.wf = true → s.priority 11 < s.executionPriority → s.canEnter 11 = true →
    ∃ t, exec (.svc imm8) s = .next t ∧ Entered s t 11 (s.pc + 2)

/-- SVC at a priority equal to or higher than SVCall, but lower than HardFault, enters HardFault with its own address as
the return address (R370, R428 cause [1]). -/
def Obligations.SvcEscalates : Prop :=
  ∀ (s : State) (imm8 : BitVec 8), s.mem.wf = true → s.executionPriority ≤ s.priority 11 →
    -1 < s.executionPriority → s.canEnter 3 = true →
    ∃ t, exec (.svc imm8) s = .next t ∧ Entered s t 3 s.pc

/-- BKPT, UDF and UDF.W enter HardFault with their own address as the return address, whatever their immediate (R355,
R377, R428 causes [2] and [7]). -/
def Obligations.FaultInstructions : Prop :=
  ∀ (s : State) (imm8 : BitVec 8) (imm16 : BitVec 16), s.mem.wf = true → -1 < s.executionPriority →
    s.canEnter 3 = true →
    ∀ i ∈ [Instr.bkpt imm8, .udf imm8, .udfW imm16], ∃ t, exec i s = .next t ∧ Entered s t 3 s.pc

/-- What raises HardFault, in the HardFault handler or at its priority, locks the processor up and changes nothing else
(R445, D31, notes/assumptions/18.md): BKPT, UDF, UDF.W and SVC; a misaligned access, a bus error, or a byte or halfword
access to the Private Peripheral Bus (notes/assumptions/23.md); and an instruction that cannot be fetched or decoded, which
no exception is taken instead of. A transfer of several words leaves no trace but in the model's own record of the stores
it tried (notes/assumptions/12.md). -/
def Obligations.FaultInHandlerLocksUp : Prop :=
  (∀ s : State, s.isActive 3 = true ∨ s.executionPriority ≤ -1 →
    (∀ (imm8 : BitVec 8) (imm16 : BitVec 16),
      ∀ i ∈ [Instr.bkpt imm8, .udf imm8, .udfW imm16, .svc imm8], exec i s = .next { s with lockup := true }) ∧
    (∀ (i : Instr) (kind : AccessKind) (a : Word) (n : Nat), SingleAccess s i kind a n → s.accessFaults kind a n →
      exec i s = .next { s with lockup := true }) ∧
    (∀ (i : Instr) (kind : AccessKind) (base : Word) (rs : List Reg), MultipleAccess s i kind base rs →
      (aligned base 4 = false → exec i s = .next { s with lockup := true }) ∧
      (aligned base 4 = true → s.transferFaults kind base rs.length →
        ∃ xs, exec i s = .next { s with lockup := true, stored := xs }))) ∧
  (∀ s : State,
    let u := s.ready
    s.noReset → u.lockup = false → u.sleep = .awake → u.isActive 3 = true ∨ u.executionPriority ≤ -1 →
    u.instrFaults → step s = .next { u with lockup := true })

/-! ## Exceptions -/

/-- Any exception whose frame and vector are in memory is entered as R430, R431 and R433 say. -/
def Obligations.EntryIsTaken : Prop :=
  ∀ (s : State) (e : Nat) (ret : Word), e ∈ exceptionNumbers → s.mem.wf = true → s.canEnter e = true →
    ∃ t, exceptionEntry s e ret s = .next t ∧ Entered s t e ret

/-- The frame is a multiple of 8 and ends at the stack pointer, or one word below it when that is not; bit [9] of the
stacked PSR says which, the return finds the old stack pointer from it, and the skipped word is not written (R431). -/
def Obligations.FrameIsAligned : Prop :=
  ∀ s : State, s.framePointer.toNat % 8 = 0 ∧
    (s.sp.toNat % 8 = 0 → s.framePointer = s.sp - 32) ∧ (s.sp.toNat % 8 ≠ 0 → s.framePointer = s.sp - 36) ∧
    s.stackedPsr.getLsbD 9 = decide (s.sp.toNat % 8 ≠ 0) ∧ returnedSp s.framePointer s.stackedPsr = s.sp ∧
    ∀ (e : Nat) (ret : Word), e ∈ exceptionNumbers → s.mem.wf = true → s.canEnter e = true → s.sp.toNat % 8 ≠ 0 →
      ∃ t, exceptionEntry s e ret s = .next t ∧ t.number s.framePointer 4 = (s.readReg 0).toNat ∧
        t.number (s.framePointer + 0x1C) 4 = s.stackedPsr.toNat ∧ t.number (s.sp - 4) 4 = s.number (s.sp - 4) 4

/-- An exception return from memory, by BX or by POP with PC, restores the stacked registers, flags and mode, frees the
frame and ends the handler; POP loads the registers of its list and moves SP first (R440, R441). A return to Thread mode
with SCR.SLEEPONEXIT set does this too, and SleepOnExit says what becomes of the sleep state. -/
def Obligations.ExceptionReturns : Prop :=
  ∀ (s : State) (i : Instr) (v : Word) (list : BitVec 8) (n : Nat) (toThread fromProcess : Bool),
    LoadsPc s i v list n → s.handlerMode = true →
    v = (if toThread then if fromProcess then 0xFFFFFFFD else 0xFFFFFFF9 else 0xFFFFFFF1) →
    (fromProcess = true → toThread = true) →
    s.isActive s.ipsr.toNat = true →
    (toThread = true ↔ ∀ e : Nat, s.isActive e = true → e = s.ipsr.toNat) →
    let fp := if fromProcess then s.processSp else s.mainSp + BitVec.ofNat 32 (4 * n)
    s.ordinaryWords .read fp 8 = true → (toThread = true ↔ s.number (fp + 0x1C) 4 % 64 = 0) →
    ∃ t, exec i s = .next t ∧ Returned s t list n fromProcess fp ∧
      (toThread = false ∨ s.scb.sleepOnExit = false → t.sleep = s.sleep)

/-- The whole round: a handler that returns at once with the EXC_RETURN value it was given leaves the interrupted program
exactly as it was, its registers, stack pointers, flags, mode and place (R430, R440, R434). -/
def Obligations.EntryThenReturn : Prop :=
  ∀ (s : State) (e : Nat), s.inv = true → e ∈ exceptionNumbers → s.isActive e = false →
    (s.handlerMode = true ↔ s.nvic.active ≠ 0) → s.scb.sleepOnExit = false → s.canEnter e = true →
    s.ordinaryWords .read s.framePointer 8 = true →
    ∃ t u, exceptionEntry s e s.pc s = .next t ∧ exec (.bx 14) t = .next u ∧
      u.regs = s.regs ∧ u.lr = s.lr ∧ u.pc = s.pc ∧ u.apsr = s.apsr ∧ u.thumb = s.thumb ∧ u.ipsr = s.ipsr ∧
      u.spsel = s.spsel ∧ u.mainSp = s.mainSp ∧ u.processSp = s.processSp ∧ u.primask = s.primask ∧
      u.nvic.active = s.nvic.active ∧ (∀ k : Nat, k ≠ e → u.isPending k = s.isPending k) ∧ u.scb = s.scb ∧
      KeepsMemoryOutside s u s.framePointer 32

/-- A return, by BX or by POP with PC, with a reserved EXC_RETURN value, or one that the active exceptions or the stacked
IPSR contradict, stops by name (R440, D19): the returning exception is not active, a return to Thread mode while another
exception is active, a return to Handler mode while none is, or a stacked IPSR of the other mode.
The stop is the model's choice (notes/assumptions/20.md). -/
def Obligations.BadReturnsStop : Prop :=
  ∀ (s : State) (i : Instr) (v : Word) (list : BitVec 8) (n : Nat), LoadsPc s i v list n → s.handlerMode = true →
    v.toNat / 16 = 0xFFFFFFF →
    let toThread := v.toNat % 16 = 9 ∨ v.toNat % 16 = 13
    let alone := ∀ e : Nat, s.isActive e = true → e = s.ipsr.toNat
    let fp := if v.toNat % 16 = 13 then s.processSp else s.mainSp + BitVec.ofNat 32 (4 * n)
    let mode := s.number (fp + 0x1C) 4 % 64
    (v.toNat % 16 ≠ 1 → ¬toThread → exec i s = .fault .reservedExcReturn) ∧
    (v.toNat % 16 = 1 ∨ toThread → s.isActive s.ipsr.toNat = false → exec i s = .fault .inconsistentReturn) ∧
    (toThread → ¬alone → exec i s = .fault .inconsistentReturn) ∧
    (v.toNat % 16 = 1 → alone → exec i s = .fault .inconsistentReturn) ∧
    (s.isActive s.ipsr.toNat = true → s.ordinaryWords .read fp 8 = true →
      (toThread ∧ alone ∧ mode ≠ 0) ∨ (v.toNat % 16 = 1 ∧ ¬alone ∧ mode = 0) →
      exec i s = .fault .inconsistentReturn)

/-- The exception a step takes is takeable, and no takeable exception has a lower priority value, or the same value and a
lower number; there is none only when no exception is takeable (R416, R425). A machine that is awake, or wakes, and whose
input asks for it enters that exception in this step, with the PC as the return address; that the input decides when is
the model's choice (D18, notes/assumptions/15.md). -/
def Obligations.NextExceptionIsMostUrgent : Prop :=
  (∀ (s : State) (e : Nat), s.nextException = some e →
    e ∈ exceptionNumbers ∧ s.isPending e = true ∧ s.isEnabled e = true ∧ s.priority e < s.executionPriority ∧
    ∀ f ∈ exceptionNumbers, s.isPending f = true → s.isEnabled f = true → s.priority f < s.executionPriority →
      s.priority e < s.priority f ∨ (s.priority e = s.priority f ∧ e ≤ f)) ∧
  (∀ s : State, s.nextException = none → ∀ f ∈ exceptionNumbers,
    ¬(s.isPending f = true ∧ s.isEnabled f = true ∧ s.priority f < s.executionPriority)) ∧
  (∀ (s : State) (e : Nat),
    let u := s.ready
    s.noReset → u.lockup = false → u.sleep = .awake → s.takeInput.1.takeException = true →
    u.nextException = some e →
    step s = exceptionEntry u e u.pc u ∧
      (u.mem.wf = true → u.canEnter e = true → ∃ t, step s = .next t ∧ Entered u t e u.pc))

/-- With PRIMASK set no exception of configurable priority is taken; only HardFault can be (R45, R420, R425). -/
def Obligations.PrimaskMasks : Prop :=
  ∀ (s : State) (e : Nat), s.inv = true → s.primask = true → s.nextException = some e → e = 3

/-- Under the invariant every configurable priority is one of 0, 64, 128 and 192 (R60, R72, R73, R415). -/
def Obligations.PriorityValues : Prop :=
  ∀ (s : State) (e : Nat), s.inv = true → e ∈ exceptionNumbers → e ≠ 2 → e ≠ 3 →
    s.priority e = 0 ∨ s.priority e = 64 ∨ s.priority e = 128 ∨ s.priority e = 192

/-- No instruction changes the mode but by entering HardFault or SVCall or by an exception return: a changed exception
number is 3, or 11 by SVC, or the instruction is BX or POP in Handler mode (R400, R41). -/
def Obligations.OnlyExceptionsChangeMode : Prop :=
  ∀ (i : Instr) (s t : State), exec i s = .next t → t.ipsr ≠ s.ipsr →
    t.ipsr.toNat = 3 ∨ (t.ipsr.toNat = 11 ∧ ∃ imm8, i = .svc imm8) ∨
      (s.handlerMode = true ∧ ((∃ rm, i = .bx rm) ∨ ∃ list, i = .pop true list))

/-! ## Sleep and lockup -/

/-- In lockup a step without a reset runs no instruction: only the agents' own state (pending bits, lines, SysTick, event
register) and the inputs change (R445, D31). That the registers are frozen is the model's choice
(notes/assumptions/18.md). -/
def Obligations.LockupRunsNothing : Prop :=
  ∀ s : State, s.lockup = true → s.noReset →
    ∃ t, step s = .next t ∧ t.lockup = true ∧ t.regs = s.regs ∧ t.msp = s.msp ∧ t.psp = s.psp ∧ t.lr = s.lr ∧
      t.pc = s.pc ∧ t.apsr = s.apsr ∧ t.ipsr = s.ipsr ∧ t.thumb = s.thumb ∧ t.primask = s.primask ∧
      t.spsel = s.spsel ∧ t.scb = s.scb ∧ t.nvic.active = s.nvic.active ∧ t.nvic.enable = s.nvic.enable ∧
      t.nvic.ipr = s.nvic.ipr ∧ t.sleep = s.sleep ∧ t.mem = s.mem ∧ t.memMap = s.memMap ∧
      t.freeIndex = s.freeIndex

/-- Asleep after WFI or sleep-on-exit, a step runs nothing and the sleep lasts until an enabled pending exception would be
taken but for PRIMASK (R480); asleep after WFE, until the event register is set, which the wake-up clears, or an exception
is takeable (R482); a spurious wake-up ends either (R481). A machine that wakes goes on awake in the same step.
That everything survives, in deep sleep too, is the model's choice (D27, notes/assumptions/29.md). -/
def Obligations.SleepLasts : Prop :=
  ∀ (s : State) (cause : SleepCause) (deep : Bool), s.sleep = .asleep cause deep → s.lockup = false → s.noReset →
    let u := (s.takeInput.2).runAgents s.takeInput.1
    let wakes : Prop := s.takeInput.1.wake = true ∨ match cause with
      | .interrupt => ∃ e ∈ exceptionNumbers, u.isPending e = true ∧ u.isEnabled e = true ∧
          (∀ a ∈ exceptionNumbers, u.isActive a = true → u.priority e < u.priority a) ∧ u.priority e < 256
      | .event => u.event = true ∨
          ∃ e ∈ exceptionNumbers, u.isPending e = true ∧ u.isEnabled e = true ∧ u.priority e < u.executionPriority
    (¬wakes → ∃ t, step s = .next t ∧ t.sleep = s.sleep ∧ t.regs = s.regs ∧ t.msp = s.msp ∧ t.psp = s.psp ∧
      t.lr = s.lr ∧ t.pc = s.pc ∧ t.apsr = s.apsr ∧ t.ipsr = s.ipsr ∧ t.thumb = s.thumb ∧ t.primask = s.primask ∧
      t.spsel = s.spsel ∧ t.scb = s.scb ∧ t.mem = s.mem) ∧
    (wakes → s.ready = { u with sleep := .awake, event := match cause with
        | .interrupt => u.event
        | .event => false } ∧
      step s = s.ready.coreStep s.takeInput.1.takeException)

/-- A return to Thread mode with SCR.SLEEPONEXIT set, by BX or by POP with PC and from either stack, restores the stacked
context and leaves the processor asleep at the Thread-mode return address, unless an exception that would end the sleep is
pending, which leaves it awake (R440, R480, R483).
In Thread mode, with no exception active, every enabled pending exception has the priority to end it; that PRIMASK does
not count here is the model's choice (notes/assumptions/29.md). -/
def Obligations.SleepOnExit : Prop :=
  ∀ (s : State) (i : Instr) (v : Word) (list : BitVec 8) (n : Nat) (fromProcess : Bool),
    LoadsPc s i v list n → s.handlerMode = true → v = (if fromProcess then 0xFFFFFFFD else 0xFFFFFFF9) →
    s.isActive s.ipsr.toNat = true → (∀ e : Nat, s.isActive e = true → e = s.ipsr.toNat) →
    let fp := if fromProcess then s.processSp else s.mainSp + BitVec.ofNat 32 (4 * n)
    s.ordinaryWords .read fp 8 = true → s.number (fp + 0x1C) 4 % 64 = 0 → s.scb.sleepOnExit = true →
    ∃ t, exec i s = .next t ∧ Returned s t list n fromProcess fp ∧ t.handlerMode = false ∧
      ((∃ e ∈ exceptionNumbers, s.isPending e = true ∧ s.isEnabled e = true) → t.sleep = s.sleep) ∧
      ((¬∃ e ∈ exceptionNumbers, s.isPending e = true ∧ s.isEnabled e = true) →
        t.sleep = .asleep .interrupt s.scb.sleepDeep)

/-! ## The interrupt controller and the registers of the Private Peripheral Bus -/

/-- One sample of the lines: an interrupt becomes pending when its line is high and it is not active, or when its line
rises; no pending bit is cleared; a word store to ISPR pends the interrupts it names (R461). That the latch of
the previous sample is clear after reset is the spec's own decision (D15), which the model takes
(notes/assumptions/40.md). -/
def Obligations.LinesPendInterrupts : Prop :=
  ∀ (s : State) (lines : BitVec 32) (n : Nat), n < 32 →
    (s.sampleLines lines).isPending (16 + n) =
      (s.isPending (16 + n) ||
        (lines.getLsbD n && (!s.isActive (16 + n) || !s.nvic.lastLine.getLsbD n))) ∧
    (s.sampleLines lines).nvic.lastLine.getLsbD n = lines.getLsbD n ∧
    (∀ w : Word, ∃ t, s.storeWord 0xE000E200 w = .ok t ∧
      t.isPending (16 + n) = (s.isPending (16 + n) || w.getLsbD n)) ∧
    State.reset.nvic.lastLine.getLsbD n = false

/-- Word stores to ISER, ICER, ISPR and ICPR set and clear the enable and pending bits that the word names, and loads of
both addresses of a pair read them back (R56 to R59, R464). -/
def Obligations.NvicSetAndClear : Prop :=
  ∀ (s : State) (w : Word),
    (∃ t, s.storeWord 0xE000E100 w = .ok t ∧ (∀ n : Nat, n < 32 →
      t.nvic.enable.getLsbD n = (s.nvic.enable.getLsbD n || w.getLsbD n)) ∧
      t.loadWord 0xE000E100 = .ok (t.nvic.enable, t) ∧ t.nvic.pending = s.nvic.pending) ∧
    (∃ t, s.storeWord 0xE000E180 w = .ok t ∧ (∀ n : Nat, n < 32 →
      t.nvic.enable.getLsbD n = (s.nvic.enable.getLsbD n && !w.getLsbD n)) ∧
      t.loadWord 0xE000E180 = .ok (t.nvic.enable, t) ∧ t.nvic.pending = s.nvic.pending) ∧
    (∃ t v, s.storeWord 0xE000E200 w = .ok t ∧ t.loadWord 0xE000E200 = .ok (v, t) ∧ (∀ n : Nat, n < 32 →
      v.getLsbD n = t.isPending (16 + n) ∧ t.isPending (16 + n) = (s.isPending (16 + n) || w.getLsbD n)) ∧
      t.nvic.active = s.nvic.active ∧ t.nvic.enable = s.nvic.enable) ∧
    (∃ t v, s.storeWord 0xE000E280 w = .ok t ∧ t.loadWord 0xE000E280 = .ok (v, t) ∧ (∀ n : Nat, n < 32 →
      v.getLsbD n = t.isPending (16 + n) ∧ t.isPending (16 + n) = (s.isPending (16 + n) && !w.getLsbD n)) ∧
      t.nvic.active = s.nvic.active ∧ t.nvic.enable = s.nvic.enable)

/-- A word store to IPRn, SHPR2 or SHPR3 keeps bits [7:6] of each implemented field, and those are the priorities of the
exceptions; a load reads the fields back (R60, R61, R72, R73, R415). -/
def Obligations.PriorityRegisters : Prop :=
  ∀ (s : State) (w : Word),
    (∀ (n : Fin 8) (k : Nat), k < 4 → ∃ t, s.storeWord (0xE000E400 + BitVec.ofNat 32 (4 * n.val)) w = .ok t ∧
      t.priority (16 + 4 * n.val + k) = ((w.toNat / 256 ^ k % 256 / 64 * 64 : Nat) : Int) ∧
      t.loadWord (0xE000E400 + BitVec.ofNat 32 (4 * n.val)) = .ok (w &&& 0xC0C0C0C0, t)) ∧
    (∃ t v, s.storeWord 0xE000ED1C w = .ok t ∧ t.loadWord 0xE000ED1C = .ok (v, t) ∧
      v.toNat / 2 ^ 24 = w.toNat / 2 ^ 30 * 64 ∧
      t.priority 11 = ((w.toNat / 2 ^ 30 * 64 : Nat) : Int)) ∧
    (∃ t v, s.storeWord 0xE000ED20 w = .ok t ∧ t.loadWord 0xE000ED20 = .ok (v, t) ∧
      v.toNat / 2 ^ 24 = w.toNat / 2 ^ 30 * 64 ∧ v.toNat / 2 ^ 16 % 256 = w.toNat / 2 ^ 22 % 4 * 64 ∧
      t.priority 15 = ((w.toNat / 2 ^ 30 * 64 : Nat) : Int) ∧
      t.priority 14 = ((w.toNat / 2 ^ 22 % 4 * 64 : Nat) : Int))

/-- Writes of 1 to the set and clear bits of ICSR, one bit of a pair at a time, pend and unpend PendSV and SysTick and
nothing else (R67, R465). -/
def Obligations.IcsrPendsAndClears : Prop :=
  ∀ (s : State) (w : Word), ¬(w.getLsbD 28 = true ∧ w.getLsbD 27 = true) →
    ¬(w.getLsbD 26 = true ∧ w.getLsbD 25 = true) →
    ∃ t, s.storeWord 0xE000ED04 w = .ok t ∧
      t.isPending 14 = (w.getLsbD 28 || s.isPending 14 && !w.getLsbD 27) ∧
      t.isPending 15 = (w.getLsbD 26 || s.isPending 15 && !w.getLsbD 25) ∧
      (∀ e : Nat, e ≠ 14 → e ≠ 15 → t.isPending e = s.isPending e) ∧ t.nvic.active = s.nvic.active

/-- A read of ICSR: VECTACTIVE is IPSR, PENDSVSET and PENDSTSET are the pending bits, ISRPENDING says whether an interrupt
is pending, VECTPENDING is 0 or names the pending and enabled exception of the highest priority, NMIPENDSET is 0; bits
[27] and [25] are open (R465, U16). That VECTPENDING ignores PRIMASK and the execution priority, and ISRPENDING counts
disabled interrupts, is presumed (notes/assumptions/28.md). -/
def Obligations.IcsrReads : Prop :=
  ∀ s : State, ∃ v t, s.loadWord 0xE000ED04 = .ok (v, t) ∧ v.toNat % 64 = s.ipsr.toNat ∧
    v.getLsbD 31 = false ∧ v.getLsbD 28 = s.isPending 14 ∧ v.getLsbD 26 = s.isPending 15 ∧
    (v.getLsbD 22 = true ↔ ∃ n : Nat, n < 32 ∧ s.isPending (16 + n) = true) ∧
    (v.toNat / 2 ^ 12 % 64 = 0 ∨ v.toNat / 2 ^ 12 % 64 ∈ exceptionNumbers) ∧
    (v.toNat / 2 ^ 12 % 64 = 0 → ∀ e ∈ exceptionNumbers, ¬(s.isPending e = true ∧ s.isEnabled e = true)) ∧
    (∀ e ∈ exceptionNumbers, v.toNat / 2 ^ 12 % 64 = e →
      s.isPending e = true ∧ s.isEnabled e = true ∧
      ∀ f ∈ exceptionNumbers, s.isPending f = true → s.isEnabled f = true →
        s.priority e < s.priority f ∨ (s.priority e = s.priority f ∧ e ≤ f))

/-- AIRCR: a write without the key 0x05FA changes nothing; with it, SYSRESETREQ asks for the reset that the next step is,
and VECTCLRACTIVE stops by name (R69, R503, U3). A word store to SCR writes SEVONPEND, SLEEPDEEP and SLEEPONEXIT, which
a load reads back, and nothing else (R70). That the reset is the very next step, and the stop, are the model's choices
(notes/assumptions/25.md, notes/assumptions/21.md). -/
def Obligations.AircrKey : Prop :=
  ∀ (s : State) (w : Word),
    (w.toNat / 65536 ≠ 0x05FA → s.storeWord 0xE000ED0C w = .ok s) ∧
    (w.toNat / 65536 = 0x05FA → w.getLsbD 1 = true → s.storeWord 0xE000ED0C w = .fault .vectClrActive) ∧
    (w.toNat / 65536 = 0x05FA → w.getLsbD 1 = false → w.getLsbD 2 = true → s.ordinary .read 0 4 = true →
      s.ordinary .read 4 4 = true →
      ∃ t u, s.storeWord 0xE000ED0C w = .ok t ∧ step t = .next u ∧ u.pc.toNat = s.number 4 4 / 2 * 2 ∧
        u.msp.toNat = s.number 0 4 / 4 * 4 ∧ u.ipsr = 0) ∧
    (∃ t v, s.storeWord 0xE000ED10 w = .ok t ∧
      t = { s with scb := { s.scb with
        sevOnPend := w.getLsbD 4, sleepDeep := w.getLsbD 2, sleepOnExit := w.getLsbD 1 } } ∧
      t.loadWord 0xE000ED10 = .ok (v, t) ∧
      v.getLsbD 4 = w.getLsbD 4 ∧ v.getLsbD 2 = w.getLsbD 2 ∧ v.getLsbD 1 = w.getLsbD 1)

/-- One tick of an enabled counter: at 0 it reloads without a flag; else it counts down, and reaching 0 sets COUNTFLAG
and, with TICKINT, makes exception 15 pending (R470). A disabled counter does not change. -/
def Obligations.SysTickCounts : Prop :=
  ∀ s : State,
    (s.systick.enable = false → s.tick = s) ∧
    (s.systick.enable = true → s.systick.current.toNat = 0 →
      s.tick.systick.current = s.systick.reload ∧ s.tick.systick.countFlag = s.systick.countFlag ∧
      s.tick.nvic.pending = s.nvic.pending) ∧
    (s.systick.enable = true → s.systick.current.toNat ≠ 0 →
      s.tick.systick.current.toNat = s.systick.current.toNat - 1 ∧
      s.tick.systick.countFlag = (s.systick.countFlag || decide (s.systick.current.toNat = 1)) ∧
      s.tick.isPending 15 =
        (s.isPending 15 || (s.systick.tickInt && decide (s.systick.current.toNat = 1))) ∧
      ∀ e : Nat, e ≠ 15 → s.tick.isPending e = s.isPending e)

/-- SYST_CSR reads COUNTFLAG in bit [16] and the control bits in [2:0] and then clears COUNTFLAG; a write to it stores the
control bits and loads no counter; SYST_RVR stores bits [23:0], not used at once; SYST_CVR reads the counter, and a write
to it clears the counter and COUNTFLAG and pends nothing, so that the next tick reloads without a flag; SYST_CALIB is
read-only (R471). That SYST_CALIB reads 0xC0000000 and that reserved bits read as zero are the model's choices
(notes/assumptions/38.md, notes/assumptions/14.md). -/
def Obligations.SysTickRegisters : Prop :=
  ∀ (s : State) (w : Word),
    (∃ v t, s.loadWord 0xE000E010 = .ok (v, t) ∧
      v.toNat = 65536 * bitValue s.systick.countFlag + 4 * bitValue s.systick.clkSource
        + 2 * bitValue s.systick.tickInt + bitValue s.systick.enable ∧
      t.systick.countFlag = false ∧ t.systick.current = s.systick.current ∧ t.nvic = s.nvic) ∧
    (∃ t, s.storeWord 0xE000E010 w = .ok t ∧ t.systick.enable = w.getLsbD 0 ∧ t.systick.tickInt = w.getLsbD 1 ∧
      t.systick.clkSource = w.getLsbD 2 ∧ t.systick.countFlag = s.systick.countFlag ∧
      t.systick.current = s.systick.current) ∧
    (∃ t, s.storeWord 0xE000E014 w = .ok t ∧ t.systick.reload.toNat = w.toNat % 2 ^ 24 ∧
      t.systick.current = s.systick.current) ∧
    (∃ t, s.storeWord 0xE000E018 w = .ok t ∧ t.systick.current.toNat = 0 ∧ t.systick.countFlag = false ∧
      t.nvic.pending = s.nvic.pending ∧ t.systick.reload = s.systick.reload ∧
      (s.systick.enable = true → t.tick.systick.current = s.systick.reload ∧ t.tick.systick.countFlag = false ∧
        t.tick.nvic.pending = s.nvic.pending)) ∧
    (∃ v, s.loadWord 0xE000E018 = .ok (v, s) ∧ v.toNat = s.systick.current.toNat) ∧
    s.loadWord 0xE000E01C = .ok (0xC0000000, s) ∧ s.storeWord 0xE000E01C w = .ok s

/-! ## Memory -/

/-- A word stored in memory reads back whole, and its halfwords and bytes read back little-endian (R131, R132). -/
def Obligations.StoreThenLoad : Prop :=
  ∀ (s : State) (a v : Word), s.mem.wf = true → s.ordinary .write a 4 = true → s.ordinary .read a 4 = true →
    ∃ t, s.storeWord a v = .ok t ∧ t.loadWord a = .ok (v, t) ∧
      (∀ k : Nat, k < 2 → ∃ h, t.loadHalfword (a + BitVec.ofNat 32 (2 * k)) = .ok h ∧
        h.toNat = v.toNat / 65536 ^ k % 65536) ∧
      (∀ k : Nat, k < 4 → ∃ b, t.loadByte (a + BitVec.ofNat 32 k) = .ok b ∧ b.toNat = v.toNat / 256 ^ k % 256)
end

