-- ==== Sys2Proof/Laws/Memory.lean ====
section
/-!
SUPPORT. Laws of memory: what a read gives after a write, and that every operation keeps the canonical form.
-/

namespace Sys2Proof.Machine

/-! ## Reading -/

theorem Memory.find_insert (m : Memory) (a k : Nat) (b : Byte) :
    (m.insert a b).find k = if a = k then some b else m.find k := by
  induction m with
  | nil => simp [Memory.insert, Memory.find]
  | cons x rest ih =>
    obtain ⟨k', v⟩ := x
    simp only [Memory.insert]
    split
    · by_cases h : a = k <;> simp [Memory.find, h]
    · split
      · subst_vars
        simp only [Memory.find]
        by_cases h : k' = k <;> simp [h]
      · simp only [Memory.find, ih]
        by_cases h : k' = k
        · subst h; split <;> simp_all
        · simp [h]

/-- In a canonical memory nothing below its first possible address is listed. -/
theorem Memory.find_below {m : Memory} {lo a : Nat} (h : Memory.wfFrom lo m = true) (ha : a < lo) :
    m.find a = none := by
  induction m generalizing lo with
  | nil => rfl
  | cons x rest ih =>
    obtain ⟨k, v⟩ := x
    simp only [Memory.wfFrom, Bool.and_eq_true, decide_eq_true_eq, bne_iff_ne] at h
    simp only [Memory.find]
    rw [if_neg (by omega)]
    exact ih h.2 (by omega)

theorem Memory.find_remove {m : Memory} {lo : Nat} (h : Memory.wfFrom lo m = true) (a k : Nat) :
    (m.remove a).find k = if a = k then none else m.find k := by
  induction m generalizing lo with
  | nil => simp [Memory.remove, Memory.find]
  | cons x rest ih =>
    obtain ⟨k', v⟩ := x
    have hw := h
    simp only [Memory.wfFrom, Bool.and_eq_true, decide_eq_true_eq, bne_iff_ne] at h
    simp only [Memory.remove]
    split
    · subst_vars
      by_cases e : k' = k
      · subst e
        simpa [Memory.find] using Memory.find_below h.2 (by omega)
      · simp [Memory.find, e]
    · simp only [Memory.find, ih h.2]
      by_cases e : k' = k
      · subst e; split <;> simp_all
      · simp [e]

/-- A byte read after a byte write (R132). -/
theorem Memory.readByte_writeByte {m : Memory} (h : m.wf = true) (a k : Nat) (b : Byte) :
    (m.writeByte a b).readByte k = if a = k then b else m.readByte k := by
  unfold Memory.writeByte Memory.readByte
  split
  · subst_vars
    rw [Memory.find_remove h]
    split <;> rfl
  · rw [Memory.find_insert]
    split <;> rfl

/-! ## The canonical form -/

theorem Memory.wfFrom_mono {m : Memory} {lo lo' : Nat} (h : Memory.wfFrom lo m = true) (hl : lo' ≤ lo) :
    Memory.wfFrom lo' m = true := by
  cases m with
  | nil => rfl
  | cons x rest =>
    obtain ⟨k, v⟩ := x
    simp only [Memory.wfFrom, Bool.and_eq_true, decide_eq_true_eq, bne_iff_ne] at h ⊢
    exact ⟨⟨⟨by omega, h.1.1.2⟩, h.1.2⟩, h.2⟩

theorem Memory.wfFrom_insert {m : Memory} {lo a : Nat} {b : Byte} (h : Memory.wfFrom lo m = true) (hl : lo ≤ a)
    (ha : a < addressSpace) (hb : b ≠ Memory.unlisted) : Memory.wfFrom lo (m.insert a b) = true := by
  induction m generalizing lo with
  | nil => simp [Memory.insert, Memory.wfFrom, hl, ha, hb]
  | cons x rest ih =>
    obtain ⟨k, v⟩ := x
    simp only [Memory.wfFrom, Bool.and_eq_true, decide_eq_true_eq, bne_iff_ne] at h
    simp only [Memory.insert]
    split
    · simp only [Memory.wfFrom, Bool.and_eq_true, decide_eq_true_eq, bne_iff_ne]
      exact ⟨⟨⟨hl, ha⟩, hb⟩, ⟨⟨by omega, h.1.1.2⟩, h.1.2⟩, h.2⟩
    · split
      · subst_vars
        simp only [Memory.wfFrom, Bool.and_eq_true, decide_eq_true_eq, bne_iff_ne]
        exact ⟨⟨⟨hl, ha⟩, hb⟩, h.2⟩
      · simp only [Memory.wfFrom, Bool.and_eq_true, decide_eq_true_eq, bne_iff_ne]
        exact ⟨⟨⟨h.1.1.1, h.1.1.2⟩, h.1.2⟩, ih h.2 (by omega)⟩

theorem Memory.wfFrom_remove {m : Memory} {lo : Nat} (a : Nat) (h : Memory.wfFrom lo m = true) :
    Memory.wfFrom lo (m.remove a) = true := by
  induction m generalizing lo with
  | nil => rfl
  | cons x rest ih =>
    obtain ⟨k, v⟩ := x
    have hw := h
    simp only [Memory.wfFrom, Bool.and_eq_true, decide_eq_true_eq, bne_iff_ne] at h
    simp only [Memory.remove]
    split
    · exact Memory.wfFrom_mono h.2 (by omega)
    · simp only [Memory.wfFrom, Bool.and_eq_true, decide_eq_true_eq, bne_iff_ne]
      exact ⟨h.1, ih h.2⟩

/-- A byte write inside the address space keeps the canonical form. -/
theorem Memory.wf_writeByte {m : Memory} {a : Nat} (b : Byte) (h : m.wf = true) (ha : a < addressSpace) :
    (m.writeByte a b).wf = true := by
  unfold Memory.writeByte
  split
  · exact Memory.wfFrom_remove a h
  · exact Memory.wfFrom_insert h (Nat.zero_le a) ha ‹_›

theorem byteAddress_lt (a : Word) (i : Nat) : byteAddress a i < addressSpace := (a + BitVec.ofNat 32 i).isLt

theorem Memory.wf_writeHalfword {m : Memory} (a : Word) (v : Halfword) (h : m.wf = true) :
    (m.writeHalfword a v).wf = true :=
  Memory.wf_writeByte _ (Memory.wf_writeByte _ h (byteAddress_lt a 0)) (byteAddress_lt a 1)

theorem Memory.wf_writeWord {m : Memory} (a : Word) (v : Word) (h : m.wf = true) : (m.writeWord a v).wf = true :=
  Memory.wf_writeByte _ (Memory.wf_writeByte _ (Memory.wf_writeByte _ (Memory.wf_writeByte _ h
    (byteAddress_lt a 0)) (byteAddress_lt a 1)) (byteAddress_lt a 2)) (byteAddress_lt a 3)

theorem Memory.wf_placeBytes {m : Memory} (a : Word) (bs : List Byte) (h : m.wf = true) :
    (m.placeBytes a bs).wf = true := by
  induction bs generalizing m a with
  | nil => exact h
  | cons b bs ih => exact ih (a + 1) (Memory.wf_writeByte b h (byteAddress_lt a 0))

/-- The machine starts with a canonical memory. -/
theorem State.reset_mem_wf : State.reset.mem.wf = true := rfl

/-! ## Multi-byte writes -/

/-- A byte read after a word write: one of the four stored bytes, or the old byte (R132). -/
theorem Memory.readByte_writeWord {m : Memory} (h : m.wf = true) (a : Word) (v : Word) (k : Nat) :
    (m.writeWord a v).readByte k =
      if byteAddress a 3 = k then v.extractLsb' 24 8
      else if byteAddress a 2 = k then v.extractLsb' 16 8
      else if byteAddress a 1 = k then v.extractLsb' 8 8
      else if byteAddress a 0 = k then v.extractLsb' 0 8
      else m.readByte k := by
  have h0 := Memory.wf_writeByte (v.extractLsb' 0 8) h (byteAddress_lt a 0)
  have h1 := Memory.wf_writeByte (v.extractLsb' 8 8) h0 (byteAddress_lt a 1)
  have h2 := Memory.wf_writeByte (v.extractLsb' 16 8) h1 (byteAddress_lt a 2)
  unfold Memory.writeWord
  rw [Memory.readByte_writeByte h2, Memory.readByte_writeByte h1, Memory.readByte_writeByte h0,
    Memory.readByte_writeByte h]

/-- A byte read after a halfword write (R132). -/
theorem Memory.readByte_writeHalfword {m : Memory} (h : m.wf = true) (a : Word) (v : Halfword) (k : Nat) :
    (m.writeHalfword a v).readByte k =
      if byteAddress a 1 = k then v.extractLsb' 8 8
      else if byteAddress a 0 = k then v.extractLsb' 0 8
      else m.readByte k := by
  have h0 := Memory.wf_writeByte (v.extractLsb' 0 8) h (byteAddress_lt a 0)
  unfold Memory.writeHalfword
  rw [Memory.readByte_writeByte h0, Memory.readByte_writeByte h]

end Sys2Proof.Machine
end

