-- ==== Sys2Proof/Laws/State.lean ====
section
/-!
SUPPORT. One lemma per field per update of State, true by rfl, so that no proof unfolds a record update.
-/

namespace Sys2Proof.Machine

/-! ## `State.advance` -/

@[simp] theorem State.advance_regs (s : State) (n : Nat) : (s.advance n).regs = s.regs := rfl
@[simp] theorem State.advance_msp (s : State) (n : Nat) : (s.advance n).msp = s.msp := rfl
@[simp] theorem State.advance_psp (s : State) (n : Nat) : (s.advance n).psp = s.psp := rfl
@[simp] theorem State.advance_lr (s : State) (n : Nat) : (s.advance n).lr = s.lr := rfl
@[simp] theorem State.advance_pc (s : State) (n : Nat) : (s.advance n).pc = s.pc + BitVec.ofNat 32 n := rfl
@[simp] theorem State.advance_apsr (s : State) (n : Nat) : (s.advance n).apsr = s.apsr := rfl
@[simp] theorem State.advance_ipsr (s : State) (n : Nat) : (s.advance n).ipsr = s.ipsr := rfl
@[simp] theorem State.advance_thumb (s : State) (n : Nat) : (s.advance n).thumb = s.thumb := rfl
@[simp] theorem State.advance_primask (s : State) (n : Nat) : (s.advance n).primask = s.primask := rfl
@[simp] theorem State.advance_spsel (s : State) (n : Nat) : (s.advance n).spsel = s.spsel := rfl
@[simp] theorem State.advance_nvic (s : State) (n : Nat) : (s.advance n).nvic = s.nvic := rfl
@[simp] theorem State.advance_scb (s : State) (n : Nat) : (s.advance n).scb = s.scb := rfl
@[simp] theorem State.advance_systick (s : State) (n : Nat) : (s.advance n).systick = s.systick := rfl
@[simp] theorem State.advance_event (s : State) (n : Nat) : (s.advance n).event = s.event := rfl
@[simp] theorem State.advance_sleep (s : State) (n : Nat) : (s.advance n).sleep = s.sleep := rfl
@[simp] theorem State.advance_lockup (s : State) (n : Nat) : (s.advance n).lockup = s.lockup := rfl
@[simp] theorem State.advance_mem (s : State) (n : Nat) : (s.advance n).mem = s.mem := rfl
@[simp] theorem State.advance_memMap (s : State) (n : Nat) : (s.advance n).memMap = s.memMap := rfl
@[simp] theorem State.advance_inputs (s : State) (n : Nat) : (s.advance n).inputs = s.inputs := rfl
@[simp] theorem State.advance_stored (s : State) (n : Nat) : (s.advance n).stored = s.stored := rfl
@[simp] theorem State.advance_freeIndex (s : State) (n : Nat) : (s.advance n).freeIndex = s.freeIndex := rfl

/-! ## `State.branchTo` -/

@[simp] theorem State.branchTo_regs (s : State) (a : Word) : (s.branchTo a).regs = s.regs := rfl
@[simp] theorem State.branchTo_msp (s : State) (a : Word) : (s.branchTo a).msp = s.msp := rfl
@[simp] theorem State.branchTo_psp (s : State) (a : Word) : (s.branchTo a).psp = s.psp := rfl
@[simp] theorem State.branchTo_lr (s : State) (a : Word) : (s.branchTo a).lr = s.lr := rfl
@[simp] theorem State.branchTo_pc (s : State) (a : Word) : (s.branchTo a).pc = clearBit0 a := rfl
@[simp] theorem State.branchTo_apsr (s : State) (a : Word) : (s.branchTo a).apsr = s.apsr := rfl
@[simp] theorem State.branchTo_ipsr (s : State) (a : Word) : (s.branchTo a).ipsr = s.ipsr := rfl
@[simp] theorem State.branchTo_thumb (s : State) (a : Word) : (s.branchTo a).thumb = s.thumb := rfl
@[simp] theorem State.branchTo_primask (s : State) (a : Word) : (s.branchTo a).primask = s.primask := rfl
@[simp] theorem State.branchTo_spsel (s : State) (a : Word) : (s.branchTo a).spsel = s.spsel := rfl
@[simp] theorem State.branchTo_nvic (s : State) (a : Word) : (s.branchTo a).nvic = s.nvic := rfl
@[simp] theorem State.branchTo_scb (s : State) (a : Word) : (s.branchTo a).scb = s.scb := rfl
@[simp] theorem State.branchTo_systick (s : State) (a : Word) : (s.branchTo a).systick = s.systick := rfl
@[simp] theorem State.branchTo_event (s : State) (a : Word) : (s.branchTo a).event = s.event := rfl
@[simp] theorem State.branchTo_sleep (s : State) (a : Word) : (s.branchTo a).sleep = s.sleep := rfl
@[simp] theorem State.branchTo_lockup (s : State) (a : Word) : (s.branchTo a).lockup = s.lockup := rfl
@[simp] theorem State.branchTo_mem (s : State) (a : Word) : (s.branchTo a).mem = s.mem := rfl
@[simp] theorem State.branchTo_memMap (s : State) (a : Word) : (s.branchTo a).memMap = s.memMap := rfl
@[simp] theorem State.branchTo_inputs (s : State) (a : Word) : (s.branchTo a).inputs = s.inputs := rfl
@[simp] theorem State.branchTo_stored (s : State) (a : Word) : (s.branchTo a).stored = s.stored := rfl
@[simp] theorem State.branchTo_freeIndex (s : State) (a : Word) : (s.branchTo a).freeIndex = s.freeIndex := rfl

/-! ## `State.interworkTo` -/

@[simp] theorem State.interworkTo_regs (s : State) (a : Word) : (s.interworkTo a).regs = s.regs := rfl
@[simp] theorem State.interworkTo_msp (s : State) (a : Word) : (s.interworkTo a).msp = s.msp := rfl
@[simp] theorem State.interworkTo_psp (s : State) (a : Word) : (s.interworkTo a).psp = s.psp := rfl
@[simp] theorem State.interworkTo_lr (s : State) (a : Word) : (s.interworkTo a).lr = s.lr := rfl
@[simp] theorem State.interworkTo_pc (s : State) (a : Word) : (s.interworkTo a).pc = clearBit0 a := rfl
@[simp] theorem State.interworkTo_apsr (s : State) (a : Word) : (s.interworkTo a).apsr = s.apsr := rfl
@[simp] theorem State.interworkTo_ipsr (s : State) (a : Word) : (s.interworkTo a).ipsr = s.ipsr := rfl
@[simp] theorem State.interworkTo_thumb (s : State) (a : Word) : (s.interworkTo a).thumb = a.getLsbD 0 := rfl
@[simp] theorem State.interworkTo_primask (s : State) (a : Word) : (s.interworkTo a).primask = s.primask := rfl
@[simp] theorem State.interworkTo_spsel (s : State) (a : Word) : (s.interworkTo a).spsel = s.spsel := rfl
@[simp] theorem State.interworkTo_nvic (s : State) (a : Word) : (s.interworkTo a).nvic = s.nvic := rfl
@[simp] theorem State.interworkTo_scb (s : State) (a : Word) : (s.interworkTo a).scb = s.scb := rfl
@[simp] theorem State.interworkTo_systick (s : State) (a : Word) : (s.interworkTo a).systick = s.systick := rfl
@[simp] theorem State.interworkTo_event (s : State) (a : Word) : (s.interworkTo a).event = s.event := rfl
@[simp] theorem State.interworkTo_sleep (s : State) (a : Word) : (s.interworkTo a).sleep = s.sleep := rfl
@[simp] theorem State.interworkTo_lockup (s : State) (a : Word) : (s.interworkTo a).lockup = s.lockup := rfl
@[simp] theorem State.interworkTo_mem (s : State) (a : Word) : (s.interworkTo a).mem = s.mem := rfl
@[simp] theorem State.interworkTo_memMap (s : State) (a : Word) : (s.interworkTo a).memMap = s.memMap := rfl
@[simp] theorem State.interworkTo_inputs (s : State) (a : Word) : (s.interworkTo a).inputs = s.inputs := rfl
@[simp] theorem State.interworkTo_stored (s : State) (a : Word) : (s.interworkTo a).stored = s.stored := rfl
@[simp] theorem State.interworkTo_freeIndex (s : State) (a : Word) : (s.interworkTo a).freeIndex = s.freeIndex := rfl

/-! ## `State.writeLow` -/

@[simp] theorem State.writeLow_regs (s : State) (r : LowReg) (v : Word) :
    (s.writeLow r v).regs = s.regs.set r.val v := rfl
@[simp] theorem State.writeLow_msp (s : State) (r : LowReg) (v : Word) : (s.writeLow r v).msp = s.msp := rfl
@[simp] theorem State.writeLow_psp (s : State) (r : LowReg) (v : Word) : (s.writeLow r v).psp = s.psp := rfl
@[simp] theorem State.writeLow_lr (s : State) (r : LowReg) (v : Word) : (s.writeLow r v).lr = s.lr := rfl
@[simp] theorem State.writeLow_pc (s : State) (r : LowReg) (v : Word) : (s.writeLow r v).pc = s.pc := rfl
@[simp] theorem State.writeLow_apsr (s : State) (r : LowReg) (v : Word) : (s.writeLow r v).apsr = s.apsr := rfl
@[simp] theorem State.writeLow_ipsr (s : State) (r : LowReg) (v : Word) : (s.writeLow r v).ipsr = s.ipsr := rfl
@[simp] theorem State.writeLow_thumb (s : State) (r : LowReg) (v : Word) : (s.writeLow r v).thumb = s.thumb := rfl
@[simp] theorem State.writeLow_primask (s : State) (r : LowReg) (v : Word) :
    (s.writeLow r v).primask = s.primask := rfl
@[simp] theorem State.writeLow_spsel (s : State) (r : LowReg) (v : Word) : (s.writeLow r v).spsel = s.spsel := rfl
@[simp] theorem State.writeLow_nvic (s : State) (r : LowReg) (v : Word) : (s.writeLow r v).nvic = s.nvic := rfl
@[simp] theorem State.writeLow_scb (s : State) (r : LowReg) (v : Word) : (s.writeLow r v).scb = s.scb := rfl
@[simp] theorem State.writeLow_systick (s : State) (r : LowReg) (v : Word) :
    (s.writeLow r v).systick = s.systick := rfl
@[simp] theorem State.writeLow_event (s : State) (r : LowReg) (v : Word) : (s.writeLow r v).event = s.event := rfl
@[simp] theorem State.writeLow_sleep (s : State) (r : LowReg) (v : Word) : (s.writeLow r v).sleep = s.sleep := rfl
@[simp] theorem State.writeLow_lockup (s : State) (r : LowReg) (v : Word) : (s.writeLow r v).lockup = s.lockup := rfl
@[simp] theorem State.writeLow_mem (s : State) (r : LowReg) (v : Word) : (s.writeLow r v).mem = s.mem := rfl
@[simp] theorem State.writeLow_memMap (s : State) (r : LowReg) (v : Word) : (s.writeLow r v).memMap = s.memMap := rfl
@[simp] theorem State.writeLow_inputs (s : State) (r : LowReg) (v : Word) : (s.writeLow r v).inputs = s.inputs := rfl
@[simp] theorem State.writeLow_stored (s : State) (r : LowReg) (v : Word) : (s.writeLow r v).stored = s.stored := rfl
@[simp] theorem State.writeLow_freeIndex (s : State) (r : LowReg) (v : Word) :
    (s.writeLow r v).freeIndex = s.freeIndex := rfl

/-! ## `State.setNZ` -/

@[simp] theorem State.setNZ_regs (s : State) (r : Word) : (s.setNZ r).regs = s.regs := rfl
@[simp] theorem State.setNZ_msp (s : State) (r : Word) : (s.setNZ r).msp = s.msp := rfl
@[simp] theorem State.setNZ_psp (s : State) (r : Word) : (s.setNZ r).psp = s.psp := rfl
@[simp] theorem State.setNZ_lr (s : State) (r : Word) : (s.setNZ r).lr = s.lr := rfl
@[simp] theorem State.setNZ_pc (s : State) (r : Word) : (s.setNZ r).pc = s.pc := rfl
@[simp] theorem State.setNZ_apsr (s : State) (r : Word) :
    (s.setNZ r).apsr = { s.apsr with n := r.getLsbD 31, z := decide (r = 0) } := rfl
@[simp] theorem State.setNZ_ipsr (s : State) (r : Word) : (s.setNZ r).ipsr = s.ipsr := rfl
@[simp] theorem State.setNZ_thumb (s : State) (r : Word) : (s.setNZ r).thumb = s.thumb := rfl
@[simp] theorem State.setNZ_primask (s : State) (r : Word) : (s.setNZ r).primask = s.primask := rfl
@[simp] theorem State.setNZ_spsel (s : State) (r : Word) : (s.setNZ r).spsel = s.spsel := rfl
@[simp] theorem State.setNZ_nvic (s : State) (r : Word) : (s.setNZ r).nvic = s.nvic := rfl
@[simp] theorem State.setNZ_scb (s : State) (r : Word) : (s.setNZ r).scb = s.scb := rfl
@[simp] theorem State.setNZ_systick (s : State) (r : Word) : (s.setNZ r).systick = s.systick := rfl
@[simp] theorem State.setNZ_event (s : State) (r : Word) : (s.setNZ r).event = s.event := rfl
@[simp] theorem State.setNZ_sleep (s : State) (r : Word) : (s.setNZ r).sleep = s.sleep := rfl
@[simp] theorem State.setNZ_lockup (s : State) (r : Word) : (s.setNZ r).lockup = s.lockup := rfl
@[simp] theorem State.setNZ_mem (s : State) (r : Word) : (s.setNZ r).mem = s.mem := rfl
@[simp] theorem State.setNZ_memMap (s : State) (r : Word) : (s.setNZ r).memMap = s.memMap := rfl
@[simp] theorem State.setNZ_inputs (s : State) (r : Word) : (s.setNZ r).inputs = s.inputs := rfl
@[simp] theorem State.setNZ_stored (s : State) (r : Word) : (s.setNZ r).stored = s.stored := rfl
@[simp] theorem State.setNZ_freeIndex (s : State) (r : Word) : (s.setNZ r).freeIndex = s.freeIndex := rfl

/-! ## `State.setNZC` -/

@[simp] theorem State.setNZC_regs (s : State) (r : ShiftResult) : (s.setNZC r).regs = s.regs := rfl
@[simp] theorem State.setNZC_msp (s : State) (r : ShiftResult) : (s.setNZC r).msp = s.msp := rfl
@[simp] theorem State.setNZC_psp (s : State) (r : ShiftResult) : (s.setNZC r).psp = s.psp := rfl
@[simp] theorem State.setNZC_lr (s : State) (r : ShiftResult) : (s.setNZC r).lr = s.lr := rfl
@[simp] theorem State.setNZC_pc (s : State) (r : ShiftResult) : (s.setNZC r).pc = s.pc := rfl
@[simp] theorem State.setNZC_apsr (s : State) (r : ShiftResult) :
    (s.setNZC r).apsr = { s.apsr with n := r.result.getLsbD 31, z := decide (r.result = 0), c := r.carry } := rfl
@[simp] theorem State.setNZC_ipsr (s : State) (r : ShiftResult) : (s.setNZC r).ipsr = s.ipsr := rfl
@[simp] theorem State.setNZC_thumb (s : State) (r : ShiftResult) : (s.setNZC r).thumb = s.thumb := rfl
@[simp] theorem State.setNZC_primask (s : State) (r : ShiftResult) : (s.setNZC r).primask = s.primask := rfl
@[simp] theorem State.setNZC_spsel (s : State) (r : ShiftResult) : (s.setNZC r).spsel = s.spsel := rfl
@[simp] theorem State.setNZC_nvic (s : State) (r : ShiftResult) : (s.setNZC r).nvic = s.nvic := rfl
@[simp] theorem State.setNZC_scb (s : State) (r : ShiftResult) : (s.setNZC r).scb = s.scb := rfl
@[simp] theorem State.setNZC_systick (s : State) (r : ShiftResult) : (s.setNZC r).systick = s.systick := rfl
@[simp] theorem State.setNZC_event (s : State) (r : ShiftResult) : (s.setNZC r).event = s.event := rfl
@[simp] theorem State.setNZC_sleep (s : State) (r : ShiftResult) : (s.setNZC r).sleep = s.sleep := rfl
@[simp] theorem State.setNZC_lockup (s : State) (r : ShiftResult) : (s.setNZC r).lockup = s.lockup := rfl
@[simp] theorem State.setNZC_mem (s : State) (r : ShiftResult) : (s.setNZC r).mem = s.mem := rfl
@[simp] theorem State.setNZC_memMap (s : State) (r : ShiftResult) : (s.setNZC r).memMap = s.memMap := rfl
@[simp] theorem State.setNZC_inputs (s : State) (r : ShiftResult) : (s.setNZC r).inputs = s.inputs := rfl
@[simp] theorem State.setNZC_stored (s : State) (r : ShiftResult) : (s.setNZC r).stored = s.stored := rfl
@[simp] theorem State.setNZC_freeIndex (s : State) (r : ShiftResult) : (s.setNZC r).freeIndex = s.freeIndex := rfl

/-! ## `State.setNZCV` -/

@[simp] theorem State.setNZCV_regs (s : State) (r : AddResult) : (s.setNZCV r).regs = s.regs := rfl
@[simp] theorem State.setNZCV_msp (s : State) (r : AddResult) : (s.setNZCV r).msp = s.msp := rfl
@[simp] theorem State.setNZCV_psp (s : State) (r : AddResult) : (s.setNZCV r).psp = s.psp := rfl
@[simp] theorem State.setNZCV_lr (s : State) (r : AddResult) : (s.setNZCV r).lr = s.lr := rfl
@[simp] theorem State.setNZCV_pc (s : State) (r : AddResult) : (s.setNZCV r).pc = s.pc := rfl
@[simp] theorem State.setNZCV_apsr (s : State) (r : AddResult) :
    (s.setNZCV r).apsr = { n := r.result.getLsbD 31, z := decide (r.result = 0), c := r.carry, v := r.overflow } := rfl
@[simp] theorem State.setNZCV_ipsr (s : State) (r : AddResult) : (s.setNZCV r).ipsr = s.ipsr := rfl
@[simp] theorem State.setNZCV_thumb (s : State) (r : AddResult) : (s.setNZCV r).thumb = s.thumb := rfl
@[simp] theorem State.setNZCV_primask (s : State) (r : AddResult) : (s.setNZCV r).primask = s.primask := rfl
@[simp] theorem State.setNZCV_spsel (s : State) (r : AddResult) : (s.setNZCV r).spsel = s.spsel := rfl
@[simp] theorem State.setNZCV_nvic (s : State) (r : AddResult) : (s.setNZCV r).nvic = s.nvic := rfl
@[simp] theorem State.setNZCV_scb (s : State) (r : AddResult) : (s.setNZCV r).scb = s.scb := rfl
@[simp] theorem State.setNZCV_systick (s : State) (r : AddResult) : (s.setNZCV r).systick = s.systick := rfl
@[simp] theorem State.setNZCV_event (s : State) (r : AddResult) : (s.setNZCV r).event = s.event := rfl
@[simp] theorem State.setNZCV_sleep (s : State) (r : AddResult) : (s.setNZCV r).sleep = s.sleep := rfl
@[simp] theorem State.setNZCV_lockup (s : State) (r : AddResult) : (s.setNZCV r).lockup = s.lockup := rfl
@[simp] theorem State.setNZCV_mem (s : State) (r : AddResult) : (s.setNZCV r).mem = s.mem := rfl
@[simp] theorem State.setNZCV_memMap (s : State) (r : AddResult) : (s.setNZCV r).memMap = s.memMap := rfl
@[simp] theorem State.setNZCV_inputs (s : State) (r : AddResult) : (s.setNZCV r).inputs = s.inputs := rfl
@[simp] theorem State.setNZCV_stored (s : State) (r : AddResult) : (s.setNZCV r).stored = s.stored := rfl
@[simp] theorem State.setNZCV_freeIndex (s : State) (r : AddResult) : (s.setNZCV r).freeIndex = s.freeIndex := rfl

/-! ## `State.setMainSp` -/

@[simp] theorem State.setMainSp_regs (s : State) (v : Word) : (s.setMainSp v).regs = s.regs := rfl
@[simp] theorem State.setMainSp_msp (s : State) (v : Word) : (s.setMainSp v).msp = alignWord v := rfl
@[simp] theorem State.setMainSp_psp (s : State) (v : Word) : (s.setMainSp v).psp = s.psp := rfl
@[simp] theorem State.setMainSp_lr (s : State) (v : Word) : (s.setMainSp v).lr = s.lr := rfl
@[simp] theorem State.setMainSp_pc (s : State) (v : Word) : (s.setMainSp v).pc = s.pc := rfl
@[simp] theorem State.setMainSp_apsr (s : State) (v : Word) : (s.setMainSp v).apsr = s.apsr := rfl
@[simp] theorem State.setMainSp_ipsr (s : State) (v : Word) : (s.setMainSp v).ipsr = s.ipsr := rfl
@[simp] theorem State.setMainSp_thumb (s : State) (v : Word) : (s.setMainSp v).thumb = s.thumb := rfl
@[simp] theorem State.setMainSp_primask (s : State) (v : Word) : (s.setMainSp v).primask = s.primask := rfl
@[simp] theorem State.setMainSp_spsel (s : State) (v : Word) : (s.setMainSp v).spsel = s.spsel := rfl
@[simp] theorem State.setMainSp_nvic (s : State) (v : Word) : (s.setMainSp v).nvic = s.nvic := rfl
@[simp] theorem State.setMainSp_scb (s : State) (v : Word) : (s.setMainSp v).scb = s.scb := rfl
@[simp] theorem State.setMainSp_systick (s : State) (v : Word) : (s.setMainSp v).systick = s.systick := rfl
@[simp] theorem State.setMainSp_event (s : State) (v : Word) : (s.setMainSp v).event = s.event := rfl
@[simp] theorem State.setMainSp_sleep (s : State) (v : Word) : (s.setMainSp v).sleep = s.sleep := rfl
@[simp] theorem State.setMainSp_lockup (s : State) (v : Word) : (s.setMainSp v).lockup = s.lockup := rfl
@[simp] theorem State.setMainSp_mem (s : State) (v : Word) : (s.setMainSp v).mem = s.mem := rfl
@[simp] theorem State.setMainSp_memMap (s : State) (v : Word) : (s.setMainSp v).memMap = s.memMap := rfl
@[simp] theorem State.setMainSp_inputs (s : State) (v : Word) : (s.setMainSp v).inputs = s.inputs := rfl
@[simp] theorem State.setMainSp_stored (s : State) (v : Word) : (s.setMainSp v).stored = s.stored := rfl
@[simp] theorem State.setMainSp_freeIndex (s : State) (v : Word) : (s.setMainSp v).freeIndex = s.freeIndex := rfl

/-! ## `State.setProcessSp` -/

@[simp] theorem State.setProcessSp_regs (s : State) (v : Word) : (s.setProcessSp v).regs = s.regs := rfl
@[simp] theorem State.setProcessSp_msp (s : State) (v : Word) : (s.setProcessSp v).msp = s.msp := rfl
@[simp] theorem State.setProcessSp_psp (s : State) (v : Word) : (s.setProcessSp v).psp = alignWord v := rfl
@[simp] theorem State.setProcessSp_lr (s : State) (v : Word) : (s.setProcessSp v).lr = s.lr := rfl
@[simp] theorem State.setProcessSp_pc (s : State) (v : Word) : (s.setProcessSp v).pc = s.pc := rfl
@[simp] theorem State.setProcessSp_apsr (s : State) (v : Word) : (s.setProcessSp v).apsr = s.apsr := rfl
@[simp] theorem State.setProcessSp_ipsr (s : State) (v : Word) : (s.setProcessSp v).ipsr = s.ipsr := rfl
@[simp] theorem State.setProcessSp_thumb (s : State) (v : Word) : (s.setProcessSp v).thumb = s.thumb := rfl
@[simp] theorem State.setProcessSp_primask (s : State) (v : Word) : (s.setProcessSp v).primask = s.primask := rfl
@[simp] theorem State.setProcessSp_spsel (s : State) (v : Word) : (s.setProcessSp v).spsel = s.spsel := rfl
@[simp] theorem State.setProcessSp_nvic (s : State) (v : Word) : (s.setProcessSp v).nvic = s.nvic := rfl
@[simp] theorem State.setProcessSp_scb (s : State) (v : Word) : (s.setProcessSp v).scb = s.scb := rfl
@[simp] theorem State.setProcessSp_systick (s : State) (v : Word) : (s.setProcessSp v).systick = s.systick := rfl
@[simp] theorem State.setProcessSp_event (s : State) (v : Word) : (s.setProcessSp v).event = s.event := rfl
@[simp] theorem State.setProcessSp_sleep (s : State) (v : Word) : (s.setProcessSp v).sleep = s.sleep := rfl
@[simp] theorem State.setProcessSp_lockup (s : State) (v : Word) : (s.setProcessSp v).lockup = s.lockup := rfl
@[simp] theorem State.setProcessSp_mem (s : State) (v : Word) : (s.setProcessSp v).mem = s.mem := rfl
@[simp] theorem State.setProcessSp_memMap (s : State) (v : Word) : (s.setProcessSp v).memMap = s.memMap := rfl
@[simp] theorem State.setProcessSp_inputs (s : State) (v : Word) : (s.setProcessSp v).inputs = s.inputs := rfl
@[simp] theorem State.setProcessSp_stored (s : State) (v : Word) : (s.setProcessSp v).stored = s.stored := rfl
@[simp] theorem State.setProcessSp_freeIndex (s : State) (v : Word) :
    (s.setProcessSp v).freeIndex = s.freeIndex := rfl

/-! ## `State.afterDraw` -/

@[simp] theorem State.afterDraw_regs (s : State) : (s.afterDraw).regs = s.regs := rfl
@[simp] theorem State.afterDraw_msp (s : State) : (s.afterDraw).msp = s.msp := rfl
@[simp] theorem State.afterDraw_psp (s : State) : (s.afterDraw).psp = s.psp := rfl
@[simp] theorem State.afterDraw_lr (s : State) : (s.afterDraw).lr = s.lr := rfl
@[simp] theorem State.afterDraw_pc (s : State) : (s.afterDraw).pc = s.pc := rfl
@[simp] theorem State.afterDraw_apsr (s : State) : (s.afterDraw).apsr = s.apsr := rfl
@[simp] theorem State.afterDraw_ipsr (s : State) : (s.afterDraw).ipsr = s.ipsr := rfl
@[simp] theorem State.afterDraw_thumb (s : State) : (s.afterDraw).thumb = s.thumb := rfl
@[simp] theorem State.afterDraw_primask (s : State) : (s.afterDraw).primask = s.primask := rfl
@[simp] theorem State.afterDraw_spsel (s : State) : (s.afterDraw).spsel = s.spsel := rfl
@[simp] theorem State.afterDraw_nvic (s : State) : (s.afterDraw).nvic = s.nvic := rfl
@[simp] theorem State.afterDraw_scb (s : State) : (s.afterDraw).scb = s.scb := rfl
@[simp] theorem State.afterDraw_systick (s : State) : (s.afterDraw).systick = s.systick := rfl
@[simp] theorem State.afterDraw_event (s : State) : (s.afterDraw).event = s.event := rfl
@[simp] theorem State.afterDraw_sleep (s : State) : (s.afterDraw).sleep = s.sleep := rfl
@[simp] theorem State.afterDraw_lockup (s : State) : (s.afterDraw).lockup = s.lockup := rfl
@[simp] theorem State.afterDraw_mem (s : State) : (s.afterDraw).mem = s.mem := rfl
@[simp] theorem State.afterDraw_memMap (s : State) : (s.afterDraw).memMap = s.memMap := rfl
@[simp] theorem State.afterDraw_inputs (s : State) : (s.afterDraw).inputs = s.inputs := rfl
@[simp] theorem State.afterDraw_stored (s : State) : (s.afterDraw).stored = s.stored := rfl
@[simp] theorem State.afterDraw_freeIndex (s : State) : (s.afterDraw).freeIndex = s.freeIndex + 1 := rfl

/-! ## `State.lockedUp` -/

@[simp] theorem State.lockedUp_regs (s m : State) : (s.lockedUp m).regs = s.regs := rfl
@[simp] theorem State.lockedUp_msp (s m : State) : (s.lockedUp m).msp = s.msp := rfl
@[simp] theorem State.lockedUp_psp (s m : State) : (s.lockedUp m).psp = s.psp := rfl
@[simp] theorem State.lockedUp_lr (s m : State) : (s.lockedUp m).lr = s.lr := rfl
@[simp] theorem State.lockedUp_pc (s m : State) : (s.lockedUp m).pc = s.pc := rfl
@[simp] theorem State.lockedUp_apsr (s m : State) : (s.lockedUp m).apsr = s.apsr := rfl
@[simp] theorem State.lockedUp_ipsr (s m : State) : (s.lockedUp m).ipsr = s.ipsr := rfl
@[simp] theorem State.lockedUp_thumb (s m : State) : (s.lockedUp m).thumb = s.thumb := rfl
@[simp] theorem State.lockedUp_primask (s m : State) : (s.lockedUp m).primask = s.primask := rfl
@[simp] theorem State.lockedUp_spsel (s m : State) : (s.lockedUp m).spsel = s.spsel := rfl
@[simp] theorem State.lockedUp_nvic (s m : State) : (s.lockedUp m).nvic = s.nvic := rfl
@[simp] theorem State.lockedUp_scb (s m : State) : (s.lockedUp m).scb = s.scb := rfl
@[simp] theorem State.lockedUp_systick (s m : State) : (s.lockedUp m).systick = s.systick := rfl
@[simp] theorem State.lockedUp_event (s m : State) : (s.lockedUp m).event = s.event := rfl
@[simp] theorem State.lockedUp_sleep (s m : State) : (s.lockedUp m).sleep = s.sleep := rfl
@[simp] theorem State.lockedUp_lockup (s m : State) : (s.lockedUp m).lockup = true := rfl
@[simp] theorem State.lockedUp_mem (s m : State) : (s.lockedUp m).mem = s.mem := rfl
@[simp] theorem State.lockedUp_memMap (s m : State) : (s.lockedUp m).memMap = s.memMap := rfl
@[simp] theorem State.lockedUp_inputs (s m : State) : (s.lockedUp m).inputs = s.inputs := rfl
@[simp] theorem State.lockedUp_stored (s m : State) : (s.lockedUp m).stored = m.stored := rfl
@[simp] theorem State.lockedUp_freeIndex (s m : State) : (s.lockedUp m).freeIndex = s.freeIndex := rfl

/-! ## `State.fallAsleep` -/

@[simp] theorem State.fallAsleep_regs (s : State) (c : SleepCause) : (s.fallAsleep c).regs = s.regs := rfl
@[simp] theorem State.fallAsleep_msp (s : State) (c : SleepCause) : (s.fallAsleep c).msp = s.msp := rfl
@[simp] theorem State.fallAsleep_psp (s : State) (c : SleepCause) : (s.fallAsleep c).psp = s.psp := rfl
@[simp] theorem State.fallAsleep_lr (s : State) (c : SleepCause) : (s.fallAsleep c).lr = s.lr := rfl
@[simp] theorem State.fallAsleep_pc (s : State) (c : SleepCause) : (s.fallAsleep c).pc = s.pc := rfl
@[simp] theorem State.fallAsleep_apsr (s : State) (c : SleepCause) : (s.fallAsleep c).apsr = s.apsr := rfl
@[simp] theorem State.fallAsleep_ipsr (s : State) (c : SleepCause) : (s.fallAsleep c).ipsr = s.ipsr := rfl
@[simp] theorem State.fallAsleep_thumb (s : State) (c : SleepCause) : (s.fallAsleep c).thumb = s.thumb := rfl
@[simp] theorem State.fallAsleep_primask (s : State) (c : SleepCause) : (s.fallAsleep c).primask = s.primask := rfl
@[simp] theorem State.fallAsleep_spsel (s : State) (c : SleepCause) : (s.fallAsleep c).spsel = s.spsel := rfl
@[simp] theorem State.fallAsleep_nvic (s : State) (c : SleepCause) : (s.fallAsleep c).nvic = s.nvic := rfl
@[simp] theorem State.fallAsleep_scb (s : State) (c : SleepCause) : (s.fallAsleep c).scb = s.scb := rfl
@[simp] theorem State.fallAsleep_systick (s : State) (c : SleepCause) : (s.fallAsleep c).systick = s.systick := rfl
@[simp] theorem State.fallAsleep_event (s : State) (c : SleepCause) : (s.fallAsleep c).event = s.event := rfl
@[simp] theorem State.fallAsleep_sleep (s : State) (c : SleepCause) :
    (s.fallAsleep c).sleep = .asleep c s.scb.sleepDeep := rfl
@[simp] theorem State.fallAsleep_lockup (s : State) (c : SleepCause) : (s.fallAsleep c).lockup = s.lockup := rfl
@[simp] theorem State.fallAsleep_mem (s : State) (c : SleepCause) : (s.fallAsleep c).mem = s.mem := rfl
@[simp] theorem State.fallAsleep_memMap (s : State) (c : SleepCause) : (s.fallAsleep c).memMap = s.memMap := rfl
@[simp] theorem State.fallAsleep_inputs (s : State) (c : SleepCause) : (s.fallAsleep c).inputs = s.inputs := rfl
@[simp] theorem State.fallAsleep_stored (s : State) (c : SleepCause) : (s.fallAsleep c).stored = s.stored := rfl
@[simp] theorem State.fallAsleep_freeIndex (s : State) (c : SleepCause) :
    (s.fallAsleep c).freeIndex = s.freeIndex := rfl

/-! ## `State.enterHandler` -/

@[simp] theorem State.enterHandler_regs (s : State) (e : Nat) (link : Word) :
    (s.enterHandler e link).regs = s.regs := rfl
@[simp] theorem State.enterHandler_msp (s : State) (e : Nat) (link : Word) :
    (s.enterHandler e link).msp = s.msp := rfl
@[simp] theorem State.enterHandler_psp (s : State) (e : Nat) (link : Word) :
    (s.enterHandler e link).psp = s.psp := rfl
@[simp] theorem State.enterHandler_lr (s : State) (e : Nat) (link : Word) : (s.enterHandler e link).lr = link := rfl
@[simp] theorem State.enterHandler_pc (s : State) (e : Nat) (link : Word) : (s.enterHandler e link).pc = s.pc := rfl
@[simp] theorem State.enterHandler_apsr (s : State) (e : Nat) (link : Word) :
    (s.enterHandler e link).apsr = s.apsr := rfl
@[simp] theorem State.enterHandler_ipsr (s : State) (e : Nat) (link : Word) :
    (s.enterHandler e link).ipsr = BitVec.ofNat 6 e := rfl
@[simp] theorem State.enterHandler_thumb (s : State) (e : Nat) (link : Word) :
    (s.enterHandler e link).thumb = s.thumb := rfl
@[simp] theorem State.enterHandler_primask (s : State) (e : Nat) (link : Word) :
    (s.enterHandler e link).primask = s.primask := rfl
@[simp] theorem State.enterHandler_spsel (s : State) (e : Nat) (link : Word) :
    (s.enterHandler e link).spsel = false := rfl
@[simp] theorem State.enterHandler_nvic (s : State) (e : Nat) (link : Word) :
    (s.enterHandler e link).nvic = { s.nvic with active := setBit s.nvic.active e true, pending := setBit s.nvic.pending e false } := rfl
@[simp] theorem State.enterHandler_scb (s : State) (e : Nat) (link : Word) :
    (s.enterHandler e link).scb = s.scb := rfl
@[simp] theorem State.enterHandler_systick (s : State) (e : Nat) (link : Word) :
    (s.enterHandler e link).systick = s.systick := rfl
@[simp] theorem State.enterHandler_event (s : State) (e : Nat) (link : Word) :
    (s.enterHandler e link).event = s.event := rfl
@[simp] theorem State.enterHandler_sleep (s : State) (e : Nat) (link : Word) :
    (s.enterHandler e link).sleep = .awake := rfl
@[simp] theorem State.enterHandler_lockup (s : State) (e : Nat) (link : Word) :
    (s.enterHandler e link).lockup = s.lockup := rfl
@[simp] theorem State.enterHandler_mem (s : State) (e : Nat) (link : Word) :
    (s.enterHandler e link).mem = s.mem := rfl
@[simp] theorem State.enterHandler_memMap (s : State) (e : Nat) (link : Word) :
    (s.enterHandler e link).memMap = s.memMap := rfl
@[simp] theorem State.enterHandler_inputs (s : State) (e : Nat) (link : Word) :
    (s.enterHandler e link).inputs = s.inputs := rfl
@[simp] theorem State.enterHandler_stored (s : State) (e : Nat) (link : Word) :
    (s.enterHandler e link).stored = s.stored := rfl
@[simp] theorem State.enterHandler_freeIndex (s : State) (e : Nat) (link : Word) :
    (s.enterHandler e link).freeIndex = s.freeIndex := rfl

/-! ## `State.placeInstr` -/

@[simp] theorem State.placeInstr_regs (s : State) (nbits w : Nat) : (s.placeInstr nbits w).regs = s.regs := rfl
@[simp] theorem State.placeInstr_msp (s : State) (nbits w : Nat) : (s.placeInstr nbits w).msp = s.msp := rfl
@[simp] theorem State.placeInstr_psp (s : State) (nbits w : Nat) : (s.placeInstr nbits w).psp = s.psp := rfl
@[simp] theorem State.placeInstr_lr (s : State) (nbits w : Nat) : (s.placeInstr nbits w).lr = s.lr := rfl
@[simp] theorem State.placeInstr_pc (s : State) (nbits w : Nat) : (s.placeInstr nbits w).pc = s.pc := rfl
@[simp] theorem State.placeInstr_apsr (s : State) (nbits w : Nat) : (s.placeInstr nbits w).apsr = s.apsr := rfl
@[simp] theorem State.placeInstr_ipsr (s : State) (nbits w : Nat) : (s.placeInstr nbits w).ipsr = s.ipsr := rfl
@[simp] theorem State.placeInstr_thumb (s : State) (nbits w : Nat) : (s.placeInstr nbits w).thumb = true := rfl
@[simp] theorem State.placeInstr_primask (s : State) (nbits w : Nat) :
    (s.placeInstr nbits w).primask = s.primask := rfl
@[simp] theorem State.placeInstr_spsel (s : State) (nbits w : Nat) : (s.placeInstr nbits w).spsel = s.spsel := rfl
@[simp] theorem State.placeInstr_nvic (s : State) (nbits w : Nat) : (s.placeInstr nbits w).nvic = s.nvic := rfl
@[simp] theorem State.placeInstr_scb (s : State) (nbits w : Nat) : (s.placeInstr nbits w).scb = s.scb := rfl
@[simp] theorem State.placeInstr_systick (s : State) (nbits w : Nat) :
    (s.placeInstr nbits w).systick = s.systick := rfl
@[simp] theorem State.placeInstr_event (s : State) (nbits w : Nat) : (s.placeInstr nbits w).event = s.event := rfl
@[simp] theorem State.placeInstr_sleep (s : State) (nbits w : Nat) : (s.placeInstr nbits w).sleep = s.sleep := rfl
@[simp] theorem State.placeInstr_lockup (s : State) (nbits w : Nat) : (s.placeInstr nbits w).lockup = s.lockup := rfl
@[simp] theorem State.placeInstr_mem (s : State) (nbits w : Nat) :
    (s.placeInstr nbits w).mem = s.mem.placeBytes s.pc (tableWordBytes nbits w) := rfl
@[simp] theorem State.placeInstr_memMap (s : State) (nbits w : Nat) : (s.placeInstr nbits w).memMap = s.memMap := rfl
@[simp] theorem State.placeInstr_inputs (s : State) (nbits w : Nat) : (s.placeInstr nbits w).inputs = s.inputs := rfl
@[simp] theorem State.placeInstr_stored (s : State) (nbits w : Nat) : (s.placeInstr nbits w).stored = s.stored := rfl
@[simp] theorem State.placeInstr_freeIndex (s : State) (nbits w : Nat) :
    (s.placeInstr nbits w).freeIndex = s.freeIndex := rfl

/-! ## `State.storeTo` -/

@[simp] theorem State.storeTo_regs (s : State) (m : Memory) (a : Word) (n : Nat) :
    (s.storeTo m a n).regs = s.regs := rfl
@[simp] theorem State.storeTo_msp (s : State) (m : Memory) (a : Word) (n : Nat) :
    (s.storeTo m a n).msp = s.msp := rfl
@[simp] theorem State.storeTo_psp (s : State) (m : Memory) (a : Word) (n : Nat) :
    (s.storeTo m a n).psp = s.psp := rfl
@[simp] theorem State.storeTo_lr (s : State) (m : Memory) (a : Word) (n : Nat) :
    (s.storeTo m a n).lr = s.lr := rfl
@[simp] theorem State.storeTo_pc (s : State) (m : Memory) (a : Word) (n : Nat) :
    (s.storeTo m a n).pc = s.pc := rfl
@[simp] theorem State.storeTo_apsr (s : State) (m : Memory) (a : Word) (n : Nat) :
    (s.storeTo m a n).apsr = s.apsr := rfl
@[simp] theorem State.storeTo_ipsr (s : State) (m : Memory) (a : Word) (n : Nat) :
    (s.storeTo m a n).ipsr = s.ipsr := rfl
@[simp] theorem State.storeTo_thumb (s : State) (m : Memory) (a : Word) (n : Nat) :
    (s.storeTo m a n).thumb = s.thumb := rfl
@[simp] theorem State.storeTo_primask (s : State) (m : Memory) (a : Word) (n : Nat) :
    (s.storeTo m a n).primask = s.primask := rfl
@[simp] theorem State.storeTo_spsel (s : State) (m : Memory) (a : Word) (n : Nat) :
    (s.storeTo m a n).spsel = s.spsel := rfl
@[simp] theorem State.storeTo_nvic (s : State) (m : Memory) (a : Word) (n : Nat) :
    (s.storeTo m a n).nvic = s.nvic := rfl
@[simp] theorem State.storeTo_scb (s : State) (m : Memory) (a : Word) (n : Nat) :
    (s.storeTo m a n).scb = s.scb := rfl
@[simp] theorem State.storeTo_systick (s : State) (m : Memory) (a : Word) (n : Nat) :
    (s.storeTo m a n).systick = s.systick := rfl
@[simp] theorem State.storeTo_event (s : State) (m : Memory) (a : Word) (n : Nat) :
    (s.storeTo m a n).event = s.event := rfl
@[simp] theorem State.storeTo_sleep (s : State) (m : Memory) (a : Word) (n : Nat) :
    (s.storeTo m a n).sleep = s.sleep := rfl
@[simp] theorem State.storeTo_lockup (s : State) (m : Memory) (a : Word) (n : Nat) :
    (s.storeTo m a n).lockup = s.lockup := rfl
@[simp] theorem State.storeTo_memMap (s : State) (m : Memory) (a : Word) (n : Nat) :
    (s.storeTo m a n).memMap = s.memMap := rfl
@[simp] theorem State.storeTo_inputs (s : State) (m : Memory) (a : Word) (n : Nat) :
    (s.storeTo m a n).inputs = s.inputs := rfl
@[simp] theorem State.storeTo_freeIndex (s : State) (m : Memory) (a : Word) (n : Nat) :
    (s.storeTo m a n).freeIndex = s.freeIndex := rfl
@[simp] theorem State.storeTo_mem (s : State) (m : Memory) (a : Word) (n : Nat) : (s.storeTo m a n).mem = m := rfl
@[simp] theorem State.storeTo_stored (s : State) (m : Memory) (a : Word) (n : Nat) :
    (s.storeTo m a n).stored = (List.range n).map (fun i => a + BitVec.ofNat 32 i) ++ s.stored := rfl

/-! ## `State.setSp`: the current stack pointer only (10_state.md R34) -/

@[simp] theorem State.setSp_regs (s : State) (v : Word) : (s.setSp v).regs = s.regs := by
  unfold State.setSp; split <;> rfl
@[simp] theorem State.setSp_lr (s : State) (v : Word) : (s.setSp v).lr = s.lr := by
  unfold State.setSp; split <;> rfl
@[simp] theorem State.setSp_pc (s : State) (v : Word) : (s.setSp v).pc = s.pc := by
  unfold State.setSp; split <;> rfl
@[simp] theorem State.setSp_apsr (s : State) (v : Word) : (s.setSp v).apsr = s.apsr := by
  unfold State.setSp; split <;> rfl
@[simp] theorem State.setSp_ipsr (s : State) (v : Word) : (s.setSp v).ipsr = s.ipsr := by
  unfold State.setSp; split <;> rfl
@[simp] theorem State.setSp_thumb (s : State) (v : Word) : (s.setSp v).thumb = s.thumb := by
  unfold State.setSp; split <;> rfl
@[simp] theorem State.setSp_primask (s : State) (v : Word) : (s.setSp v).primask = s.primask := by
  unfold State.setSp; split <;> rfl
@[simp] theorem State.setSp_spsel (s : State) (v : Word) : (s.setSp v).spsel = s.spsel := by
  unfold State.setSp; split <;> rfl
@[simp] theorem State.setSp_nvic (s : State) (v : Word) : (s.setSp v).nvic = s.nvic := by
  unfold State.setSp; split <;> rfl
@[simp] theorem State.setSp_scb (s : State) (v : Word) : (s.setSp v).scb = s.scb := by
  unfold State.setSp; split <;> rfl
@[simp] theorem State.setSp_systick (s : State) (v : Word) : (s.setSp v).systick = s.systick := by
  unfold State.setSp; split <;> rfl
@[simp] theorem State.setSp_event (s : State) (v : Word) : (s.setSp v).event = s.event := by
  unfold State.setSp; split <;> rfl
@[simp] theorem State.setSp_sleep (s : State) (v : Word) : (s.setSp v).sleep = s.sleep := by
  unfold State.setSp; split <;> rfl
@[simp] theorem State.setSp_lockup (s : State) (v : Word) : (s.setSp v).lockup = s.lockup := by
  unfold State.setSp; split <;> rfl
@[simp] theorem State.setSp_mem (s : State) (v : Word) : (s.setSp v).mem = s.mem := by
  unfold State.setSp; split <;> rfl
@[simp] theorem State.setSp_memMap (s : State) (v : Word) : (s.setSp v).memMap = s.memMap := by
  unfold State.setSp; split <;> rfl
@[simp] theorem State.setSp_inputs (s : State) (v : Word) : (s.setSp v).inputs = s.inputs := by
  unfold State.setSp; split <;> rfl
@[simp] theorem State.setSp_stored (s : State) (v : Word) : (s.setSp v).stored = s.stored := by
  unfold State.setSp; split <;> rfl
@[simp] theorem State.setSp_freeIndex (s : State) (v : Word) : (s.setSp v).freeIndex = s.freeIndex := by
  unfold State.setSp; split <;> rfl

@[simp] theorem State.setSp_msp (s : State) (v : Word) :
    (s.setSp v).msp = if s.onProcessStack then s.msp else alignWord v := by
  unfold State.setSp; split <;> rfl
@[simp] theorem State.setSp_psp (s : State) (v : Word) :
    (s.setSp v).psp = if s.onProcessStack then alignWord v else s.psp := by
  unfold State.setSp; split <;> rfl

/-! ## `State.takeInput`: only the inputs and the record of stored bytes -/

@[simp] theorem State.takeInput_regs (s : State) : (s.takeInput.2).regs = s.regs := by
  unfold State.takeInput; split <;> rfl
@[simp] theorem State.takeInput_msp (s : State) : (s.takeInput.2).msp = s.msp := by
  unfold State.takeInput; split <;> rfl
@[simp] theorem State.takeInput_psp (s : State) : (s.takeInput.2).psp = s.psp := by
  unfold State.takeInput; split <;> rfl
@[simp] theorem State.takeInput_lr (s : State) : (s.takeInput.2).lr = s.lr := by
  unfold State.takeInput; split <;> rfl
@[simp] theorem State.takeInput_pc (s : State) : (s.takeInput.2).pc = s.pc := by
  unfold State.takeInput; split <;> rfl
@[simp] theorem State.takeInput_apsr (s : State) : (s.takeInput.2).apsr = s.apsr := by
  unfold State.takeInput; split <;> rfl
@[simp] theorem State.takeInput_ipsr (s : State) : (s.takeInput.2).ipsr = s.ipsr := by
  unfold State.takeInput; split <;> rfl
@[simp] theorem State.takeInput_thumb (s : State) : (s.takeInput.2).thumb = s.thumb := by
  unfold State.takeInput; split <;> rfl
@[simp] theorem State.takeInput_primask (s : State) : (s.takeInput.2).primask = s.primask := by
  unfold State.takeInput; split <;> rfl
@[simp] theorem State.takeInput_spsel (s : State) : (s.takeInput.2).spsel = s.spsel := by
  unfold State.takeInput; split <;> rfl
@[simp] theorem State.takeInput_nvic (s : State) : (s.takeInput.2).nvic = s.nvic := by
  unfold State.takeInput; split <;> rfl
@[simp] theorem State.takeInput_scb (s : State) : (s.takeInput.2).scb = s.scb := by
  unfold State.takeInput; split <;> rfl
@[simp] theorem State.takeInput_systick (s : State) : (s.takeInput.2).systick = s.systick := by
  unfold State.takeInput; split <;> rfl
@[simp] theorem State.takeInput_event (s : State) : (s.takeInput.2).event = s.event := by
  unfold State.takeInput; split <;> rfl
@[simp] theorem State.takeInput_sleep (s : State) : (s.takeInput.2).sleep = s.sleep := by
  unfold State.takeInput; split <;> rfl
@[simp] theorem State.takeInput_lockup (s : State) : (s.takeInput.2).lockup = s.lockup := by
  unfold State.takeInput; split <;> rfl
@[simp] theorem State.takeInput_memMap (s : State) : (s.takeInput.2).memMap = s.memMap := by
  unfold State.takeInput; split <;> rfl
@[simp] theorem State.takeInput_mem (s : State) : (s.takeInput.2).mem = s.mem := by
  unfold State.takeInput; split <;> rfl
@[simp] theorem State.takeInput_freeIndex (s : State) : (s.takeInput.2).freeIndex = s.freeIndex := by
  unfold State.takeInput; split <;> rfl
@[simp] theorem State.takeInput_stored (s : State) : (s.takeInput.2).stored = [] := by
  unfold State.takeInput; split <;> rfl

end Sys2Proof.Machine
end

