-- ==== Sys2Proof/Laws/Ops.lean ====
section
/-!
SUPPORT. One lemma per shared operation that says everything it can do when it answers, for a proof to cite instead of
unfolding the operation.
-/

namespace Sys2Proof.Machine

/-! ## Memory accesses -/

theorem State.access_eq_ok {α : Type} {s : State} {kind : AccessKind} {a : Word} {n : Nat} {f : Unit → α} {x : α}
    (h : s.access kind a n f = .ok x) : targetOf s.memMap kind a n = .memory ∧ x = f () := by
  unfold State.access at h
  split at h
  · exact ⟨‹_›, by injection h with h; exact h.symm⟩
  · cases h
  · cases h

/-- A word load that answers: a register of the Private Peripheral Bus, or memory, which it leaves alone. -/
theorem State.loadWord_eq_ok {s t : State} {a v : Word} (h : s.loadWord a = .ok (v, t)) :
    aligned a 4 = true ∧
      ((inPpb a = true ∧ s.ppbRead a = (v, t)) ∨
        (inPpb a = false ∧ targetOf s.memMap .read a 4 = .memory ∧ v = s.mem.readWord a ∧ t = s)) := by
  unfold State.loadWord at h
  split at h
  · cases h
  · rename_i ha
    simp only [Bool.not_eq_true', Bool.not_eq_false] at ha
    refine ⟨ha, ?_⟩
    split at h
    · exact .inl ⟨‹_›, by injection h⟩
    · obtain ⟨h1, h2⟩ := State.access_eq_ok h
      simp only [Prod.mk.injEq] at h2
      exact .inr ⟨by simpa using ‹¬inPpb a = true›, h1, h2.1, h2.2⟩

theorem State.loadHalfword_eq_ok {s : State} {a : Word} {v : Halfword} (h : s.loadHalfword a = .ok v) :
    aligned a 2 = true ∧ inPpb a = false ∧ targetOf s.memMap .read a 2 = .memory ∧ v = s.mem.readHalfword a := by
  unfold State.loadHalfword at h
  split at h
  · cases h
  · rename_i ha
    simp only [Bool.not_eq_true', Bool.not_eq_false] at ha
    split at h
    · cases h
    · exact ⟨ha, by simpa using ‹¬inPpb a = true›, State.access_eq_ok h⟩

theorem State.loadByte_eq_ok {s : State} {a : Word} {v : Byte} (h : s.loadByte a = .ok v) :
    inPpb a = false ∧ targetOf s.memMap .read a 1 = .memory ∧ v = s.mem.readByte (byteAddress a 0) := by
  unfold State.loadByte at h
  split at h
  · cases h
  · exact ⟨by simpa using ‹¬inPpb a = true›, State.access_eq_ok h⟩

/-- A word store that answers: a register of the Private Peripheral Bus, or four bytes of memory and nothing else. -/
theorem State.storeWord_eq_ok {s t : State} {a v : Word} (h : s.storeWord a v = .ok t) :
    aligned a 4 = true ∧
      ((inPpb a = true ∧ s.ppbWrite a v = .ok t) ∨
        (inPpb a = false ∧ targetOf s.memMap .write a 4 = .memory ∧ t = s.storeTo (s.mem.writeWord a v) a 4)) := by
  unfold State.storeWord at h
  split at h
  · cases h
  · rename_i ha
    simp only [Bool.not_eq_true', Bool.not_eq_false] at ha
    refine ⟨ha, ?_⟩
    split at h
    · exact .inl ⟨‹_›, h⟩
    · exact .inr ⟨by simpa using ‹¬inPpb a = true›, State.access_eq_ok h⟩

theorem State.storeHalfword_eq_ok {s t : State} {a : Word} {v : Halfword} (h : s.storeHalfword a v = .ok t) :
    aligned a 2 = true ∧ inPpb a = false ∧ targetOf s.memMap .write a 2 = .memory ∧
      t = s.storeTo (s.mem.writeHalfword a v) a 2 := by
  unfold State.storeHalfword at h
  split at h
  · cases h
  · rename_i ha
    simp only [Bool.not_eq_true', Bool.not_eq_false] at ha
    split at h
    · cases h
    · exact ⟨ha, by simpa using ‹¬inPpb a = true›, State.access_eq_ok h⟩

theorem State.storeByte_eq_ok {s t : State} {a : Word} {v : Byte} (h : s.storeByte a v = .ok t) :
    inPpb a = false ∧ targetOf s.memMap .write a 1 = .memory ∧
      t = s.storeTo (s.mem.writeByte (byteAddress a 0) v) a 1 := by
  unfold State.storeByte at h
  split at h
  · cases h
  · exact ⟨by simpa using ‹¬inPpb a = true›, State.access_eq_ok h⟩

theorem Access.bind_eq_ok {α β : Type} {x : Access α} {f : α → Access β} {b : β} (h : x.bind f = .ok b) :
    ∃ a, x = .ok a ∧ f a = .ok b := by
  cases x with
  | ok a => exact ⟨a, rfl, h⟩
  | hardFault c => cases h
  | fault r => cases h
  | refused r => cases h

/-- An instruction that ends with an access and answers: the access gave a value, or it raised HardFault. -/
theorem Access.conclude_eq_next {α : Type} {x : Access α} {s t : State} {k : α → Result}
    (h : x.conclude s k = .next t) :
    (∃ a, x = .ok a ∧ k a = .next t) ∨ ∃ c, x = .hardFault c ∧ raiseHardFault c s s = .next t := by
  cases x with
  | ok a => exact .inl ⟨a, rfl, h⟩
  | hardFault c => exact .inr ⟨c, rfl, h⟩
  | fault r => cases h
  | refused r => cases h

/-! ## Exceptions -/

/-- The handler context of exception `e`, when its vector can be read. -/
theorem State.vectorTo_eq_ok {m t : State} {e : Nat} {link : Word} (h : m.vectorTo e link = .ok t) :
    ∃ v u, m.loadWord (vectorAddress e) = .ok (v, u) ∧ t = (u.enterHandler e link).interworkTo v := by
  unfold State.vectorTo at h
  split at h
  · injection h with h
    exact ⟨_, _, ‹_›, h.symm⟩
  all_goals cases h

/-- An exception entry that answers: lockup, or the frame pushed and the handler of `e` or, after a failed access, of
HardFault entered. -/
theorem exceptionEntry_eq_next {f s t : State} {e : Nat} {ret : Word} (h : exceptionEntry f e ret s = .next t) :
    (∃ m, t = f.lockedUp m) ∨
      ∃ m lost, State.stackWords (s.frameWords ret) s.framePointer (s.setSp s.framePointer) = .ok (m, lost) ∧
        ((lost = false ∧ m.vectorTo e s.excReturn = .ok t) ∨ m.vectorTo 3 s.excReturn = .ok t) := by
  have key : ∀ m : State,
      (if e = 3 || decide (s.executionPriority ≤ -1) then (.next (f.lockedUp m) : Result)
        else match m.vectorTo 3 s.excReturn with
          | .ok u => .next u
          | .hardFault _ => .next (f.lockedUp m)
          | .fault r => .fault r
          | .refused r => .refused r) = .next t →
      (∃ m, t = f.lockedUp m) ∨ m.vectorTo 3 s.excReturn = .ok t := by
    intro m hm
    split at hm
    · injection hm with hm; exact .inl ⟨m, hm.symm⟩
    · split at hm
      · injection hm with hm; subst hm; exact .inr ‹_›
      · injection hm with hm; exact .inl ⟨m, hm.symm⟩
      · cases hm
      · cases hm
  unfold exceptionEntry at h
  simp only at h
  split at h
  · rename_i m lost hm
    split at h
    · rcases key m h with h | h
      · exact .inl h
      · exact .inr ⟨m, lost, hm, .inr h⟩
    · rename_i hl
      split at h
      · injection h with h; subst h
        exact .inr ⟨m, lost, hm, .inl ⟨by simpa using hl, ‹_›⟩⟩
      · rcases key m h with h | h
        · exact .inl h
        · exact .inr ⟨m, lost, hm, .inr h⟩
      · cases h
      · cases h
  · injection h with h; exact .inl ⟨_, h.symm⟩
  · cases h
  · cases h

/-- A raised HardFault that answers: lockup at priority -1 or higher, else an entry. -/
theorem raiseHardFault_eq_next {c : FaultCause} {f s t : State} (h : raiseHardFault c f s = .next t) :
    (s.executionPriority ≤ -1 ∧ t = f.lockedUp s) ∨
      (¬s.executionPriority ≤ -1 ∧ exceptionEntry f 3 f.pc (s.setPending 3 true) = .next t) := by
  unfold raiseHardFault at h
  split at h
  · injection h with h; exact .inl ⟨‹_›, h.symm⟩
  · exact .inr ⟨‹_›, h⟩

/-- `BXWritePC` that answers: an exception return, or a branch that loads EPSR.T. -/
theorem bxWritePc_eq_next {f s t : State} {v : Word} (h : bxWritePc f s v = .next t) :
    (s.handlerMode = true ∧ isExcReturn v = true ∧ exceptionReturn f s v = .next t) ∨ t = s.interworkTo v := by
  unfold bxWritePc at h
  split at h
  · rename_i hc
    simp only [Bool.and_eq_true] at hc
    exact .inl ⟨hc.1, hc.2, h⟩
  · injection h with h; exact .inr h.symm

/-- An exception return that answers: the frame unstacked and restored; or lockup; or HardFault raised. -/
theorem exceptionReturn_eq_next {f s t : State} {v : Word} (h : exceptionReturn f s v = .next t) :
    ∃ k, returnKindOf v = some k ∧ s.returnConsistent k = true ∧
      ((∃ fr w, s.endException.unstack (s.returnFrame k) = .ok (fr, w) ∧
          t = (w.restore k (s.returnFrame k) fr).sleepOnExit k ∧
          k.toThread = !(w.restore k (s.returnFrame k) fr).handlerMode) ∨
        t = f.lockedUp s ∨ ∃ c, raiseHardFault c f s.endException = .next t) := by
  unfold exceptionReturn at h
  split at h
  · cases h
  · rename_i k hk
    refine ⟨k, hk, ?_⟩
    split at h
    · cases h
    · rename_i hc
      refine ⟨by simpa using hc, ?_⟩
      split at h
      · rename_i fr w hu
        simp only at h
        split at h
        · cases h
        · rename_i hm
          injection h with h
          refine .inl ⟨fr, w, hu, h.symm, ?_⟩
          cases hk1 : k.toThread <;> simp_all
      · split at h
        · injection h with h; exact .inr (.inl h.symm)
        · exact .inr (.inr ⟨_, h⟩)
      · cases h
      · cases h

/-- A multiple transfer that answers: the whole transfer, or HardFault raised before any transfer or after a part. -/
theorem concludeTransfer_eq_next {s t : State} {base : Word} {whole part : Access State} {k : State → Result}
    (h : concludeTransfer s base whole part k = .next t) :
    (∃ u, whole = .ok u ∧ k u = .next t) ∨
      ∃ c, whole = .hardFault c ∧ (raiseHardFault c s s = .next t ∨
        (∃ u, part = .ok u ∧ raiseHardFault c s u = .next t) ∨
        ∃ d, part = .hardFault d ∧ raiseHardFault d s s = .next t) := by
  unfold concludeTransfer at h
  split at h
  · exact .inl ⟨_, rfl, h⟩
  · refine .inr ⟨_, rfl, ?_⟩
    split at h
    · exact .inr (Access.conclude_eq_next h)
    · exact .inl h
  · cases h
  · cases h

/-! ## A reset inside a step -/

/-- Forgetting the bytes at some addresses leaves every other byte of memory. -/
theorem State.forget_readByte {as : List Word} {s : State} (h : s.mem.wf = true) (k : Nat)
    (hk : ∀ a ∈ as, a.toNat ≠ k) : (State.forget as s).mem.readByte k = s.mem.readByte k := by
  induction as generalizing s with
  | nil => rfl
  | cons a as ih =>
    simp only [State.forget, State.drawWord]
    rw [ih (Memory.wf_writeByte _ h a.isLt) (fun b hb => hk b (List.mem_cons_of_mem a hb))]
    rw [State.afterDraw_mem, Memory.readByte_writeByte h, if_neg (hk a List.mem_cons_self)]

/-- Forgetting bytes keeps the canonical form of memory. -/
theorem State.forget_mem_wf {as : List Word} {s : State} (h : s.mem.wf = true) :
    (State.forget as s).mem.wf = true := by
  induction as generalizing s with
  | nil => exact h
  | cons a as ih => exact ih (Memory.wf_writeByte _ h a.isLt)

/-- A step that answers: the reset that a program or the host asked for, or a step without a reset. -/
theorem State.cycle_eq_next {s t : State} (h : s.cycle = .next t) :
    ((s.scb.resetRequest = true ∨ s.takeInput.1.reset = .betweenInstructions) ∧
        s.takeInput.2.warmReset s.takeInput.1.lines = .next t) ∨
      (∃ u, s.takeInput.1.reset = .insideInstruction ∧ s.takeInput.2.proceed s.takeInput.1 = .next u ∧
        (u.forget u.stored).warmReset s.takeInput.1.lines = .next t) ∨
      (s.scb.resetRequest = false ∧ s.takeInput.1.reset = .absent ∧
        s.takeInput.2.proceed s.takeInput.1 = .next t) := by
  unfold State.cycle at h
  simp only [State.takeInput_scb] at h
  split at h
  · exact .inl ⟨.inl ‹_›, h⟩
  · rename_i hr
    split at h
    · exact .inr (.inr ⟨by simpa using hr, ‹_›, h⟩)
    · exact .inl ⟨.inr ‹_›, h⟩
    · unfold State.resetInside at h
      split at h
      · exact .inr (.inl ⟨_, ‹_›, ‹_›, h⟩)
      · cases h
      · cases h

/-! ## Addition -/

/-- The result of `AddWithCarry` is the sum modulo 2^32 (00_scope.md R12). -/
theorem addWithCarry_result (a b : Word) (c : Bool) :
    (addWithCarry a b c).result = a + b + BitVec.ofNat 32 c.toNat := by
  apply BitVec.eq_of_toNat_eq
  simp [addWithCarry, BitVec.toNat_ofNat, BitVec.toNat_add]

/-! ## Registers -/

theorem alignWord_alignWord (v : Word) : alignWord (alignWord v) = alignWord v := by
  unfold alignWord; rw [BitVec.and_assoc]; rfl

theorem clearBit0_getLsbD (v : Word) : (clearBit0 v).getLsbD 0 = false := by
  simp [clearBit0]

/-- A register other than the PC reads, after a write, as the written value (SP without bits [1:0], R35). -/
theorem State.readReg_writeReg_self (s : State) (r : Reg) (v : Word) (h : r ≠ 15) :
    (s.writeReg r v).readReg r = if r = 13 then alignWord v else v := by
  unfold State.writeReg
  split
  · rename_i hr
    rw [if_neg (by intro e; subst e; exact absurd hr (by decide))]
    simp [State.readReg, hr]
  · split
    · subst_vars
      have e : (s.setSp v).onProcessStack = s.onProcessStack := by
        simp [State.onProcessStack, State.handlerMode]
      have : (s.setSp v).sp = alignWord v := by
        unfold State.sp
        rw [e]
        unfold State.processSp State.mainSp
        rw [State.setSp_psp, State.setSp_msp]
        by_cases hp : s.onProcessStack = true <;> simp [hp, alignWord_alignWord]
      simpa [State.readReg] using this
    · split
      · subst_vars
        simp [State.readReg]
      · rename_i h1 h2 h3
        exact absurd h (by
          have := r.isLt
          have e : r = 15 := by
            apply Fin.ext
            have h2' : r.val ≠ 13 := fun e => h2 (Fin.ext e)
            have h3' : r.val ≠ 14 := fun e => h3 (Fin.ext e)
            show r.val = 15
            omega
          exact fun hh => hh e)

end Sys2Proof.Machine
end

