-- ==== Sys2Proof/Laws/Stored.lean ====
section
/-!
SUPPORT. A step changes no byte of memory but those it records as stored (70_reset_and_hazards.md R502), and keeps memory
in its canonical form.
-/

namespace Sys2Proof.Machine

/-- From `s` to `t` memory keeps its canonical form, and changes only at addresses that `t` records beside those of `s`. -/
def State.Accounts (s t : State) : Prop :=
  s.mem.wf = true → t.mem.wf = true ∧ ∃ xs, t.stored = xs ++ s.stored ∧
    ∀ k : Nat, (∀ a ∈ xs, a.toNat ≠ k) → t.mem.readByte k = s.mem.readByte k

theorem State.Accounts.same {s t : State} (hm : t.mem = s.mem) (hs : t.stored = s.stored) : s.Accounts t :=
  fun h => ⟨by rw [hm]; exact h, [], by simp [hs], fun k _ => by rw [hm]⟩

theorem State.Accounts.refl (s : State) : s.Accounts s := .same rfl rfl

theorem State.Accounts.trans {s t u : State} (h1 : s.Accounts t) (h2 : t.Accounts u) : s.Accounts u := by
  intro h
  obtain ⟨hw, xs, hx, hk⟩ := h1 h
  obtain ⟨hw', ys, hy, hk'⟩ := h2 hw
  refine ⟨hw', ys ++ xs, by simp [hx, hy], fun k hn => ?_⟩
  rw [hk' k (fun a ha => hn a (by simp [ha])), hk k (fun a ha => hn a (by simp [ha]))]

/-- What follows without touching memory keeps the account. -/
theorem State.Accounts.to {s t u : State} (h : s.Accounts t) (hm : u.mem = t.mem) (hs : u.stored = t.stored) :
    s.Accounts u := h.trans (.same hm hs)

theorem State.Accounts.from {s s' t : State} (h : s'.Accounts t) (hm : s'.mem = s.mem) (hs : s'.stored = s.stored) :
    s.Accounts t := State.Accounts.trans (.same hm hs) h

/-- Lockup freezes memory. -/
theorem State.Accounts.lockedUp {f m : State} (h : f.Accounts m) : f.Accounts (f.lockedUp m) := by
  intro hw
  obtain ⟨-, xs, hx, -⟩ := h hw
  exact ⟨hw, xs, hx, fun _ _ => rfl⟩

/-! ## Small updates -/

@[simp] theorem State.withPending_mem (s : State) (p : BitVec 48) : (s.withPending p).mem = s.mem := rfl
@[simp] theorem State.withPending_stored (s : State) (p : BitVec 48) : (s.withPending p).stored = s.stored := rfl
@[simp] theorem State.setPending_mem (s : State) (e : Nat) (b : Bool) : (s.setPending e b).mem = s.mem := rfl
@[simp] theorem State.setPending_stored (s : State) (e : Nat) (b : Bool) : (s.setPending e b).stored = s.stored := rfl
@[simp] theorem State.endException_mem (s : State) : s.endException.mem = s.mem := rfl
@[simp] theorem State.endException_stored (s : State) : s.endException.stored = s.stored := rfl

@[simp] theorem State.writeReg_mem (s : State) (r : Reg) (v : Word) : (s.writeReg r v).mem = s.mem := by
  unfold State.writeReg; split
  · rfl
  · split
    · simp
    · split <;> rfl

@[simp] theorem State.writeReg_stored (s : State) (r : Reg) (v : Word) : (s.writeReg r v).stored = s.stored := by
  unfold State.writeReg; split
  · rfl
  · split
    · simp
    · split <;> rfl

@[simp] theorem State.writeSpecial_mem (s : State) (r : SpecReg) (v : Word) : (s.writeSpecial r v).mem = s.mem := by
  cases r <;> simp only [State.writeSpecial] <;> first | rfl | (split <;> rfl)

@[simp] theorem State.writeSpecial_stored (s : State) (r : SpecReg) (v : Word) :
    (s.writeSpecial r v).stored = s.stored := by
  cases r <;> simp only [State.writeSpecial] <;> first | rfl | (split <;> rfl)

@[simp] theorem State.restore_mem (s : State) (k : ReturnKind) (fp : Word) (f : Frame) :
    (s.restore k fp f).mem = s.mem := by
  unfold State.restore; simp only; split <;> rfl

@[simp] theorem State.restore_stored (s : State) (k : ReturnKind) (fp : Word) (f : Frame) :
    (s.restore k fp f).stored = s.stored := by
  unfold State.restore; simp only; split <;> rfl

@[simp] theorem State.sleepOnExit_mem (s : State) (k : ReturnKind) : (s.sleepOnExit k).mem = s.mem := by
  unfold State.sleepOnExit; split <;> rfl

@[simp] theorem State.sleepOnExit_stored (s : State) (k : ReturnKind) : (s.sleepOnExit k).stored = s.stored := by
  unfold State.sleepOnExit; split <;> rfl

/-! ## The agents -/

theorem State.tick_mem_stored (s : State) : s.tick.mem = s.mem ∧ s.tick.stored = s.stored := by
  unfold State.tick
  split
  · split
    · exact ⟨rfl, rfl⟩
    · simp only; split
      · split <;> exact ⟨rfl, rfl⟩
      · exact ⟨rfl, rfl⟩
  · exact ⟨rfl, rfl⟩

theorem State.ticks_mem_stored (n : Nat) (s : State) : (s.ticks n).mem = s.mem ∧ (s.ticks n).stored = s.stored := by
  induction n generalizing s with
  | zero => exact ⟨rfl, rfl⟩
  | succ n ih => exact ⟨(ih s.tick).1.trans s.tick_mem_stored.1, (ih s.tick).2.trans s.tick_mem_stored.2⟩

@[simp] theorem State.runAgents_mem (s : State) (i : HostInput) : (s.runAgents i).mem = s.mem :=
  (State.ticks_mem_stored _ _).1

@[simp] theorem State.runAgents_stored (s : State) (i : HostInput) : (s.runAgents i).stored = s.stored :=
  (State.ticks_mem_stored _ _).2

@[simp] theorem State.wakeUp_mem (s : State) (b : Bool) : (s.wakeUp b).mem = s.mem := by
  unfold State.wakeUp; split
  · rfl
  · split <;> rfl
  · split
    · rfl
    · split <;> rfl

@[simp] theorem State.wakeUp_stored (s : State) (b : Bool) : (s.wakeUp b).stored = s.stored := by
  unfold State.wakeUp; split
  · rfl
  · split <;> rfl
  · split
    · rfl
    · split <;> rfl

/-! ## Accesses -/

theorem State.ppbRead_mem_stored (s : State) (a : Word) :
    (s.ppbRead a).2.mem = s.mem ∧ (s.ppbRead a).2.stored = s.stored := by
  unfold State.ppbRead
  split
  · rename_i r _
    cases r <;> exact ⟨rfl, rfl⟩
  · exact ⟨rfl, rfl⟩

theorem State.writePendPair_mem_stored (s : State) (e : Nat) (b c : Bool) :
    (s.writePendPair e b c).mem = s.mem ∧ (s.writePendPair e b c).stored = s.stored := by
  cases b <;> cases c <;> exact ⟨rfl, rfl⟩

theorem State.ppbWrite_mem_stored {s t : State} {a w : Word} (h : s.ppbWrite a w = .ok t) :
    t.mem = s.mem ∧ t.stored = s.stored := by
  unfold State.ppbWrite at h
  split at h
  · rename_i r _
    cases r <;> simp only [State.writePpbReg] at h
    case icsr =>
      injection h with h; subst h
      obtain ⟨h1, h2⟩ := (s.writePendPair 14 (w.getLsbD 28) (w.getLsbD 27)).writePendPair_mem_stored 15
        (w.getLsbD 26) (w.getLsbD 25)
      obtain ⟨h3, h4⟩ := s.writePendPair_mem_stored 14 (w.getLsbD 28) (w.getLsbD 27)
      exact ⟨h1.trans h3, h2.trans h4⟩
    case aircr =>
      split at h
      · split at h
        · cases h
        · injection h with h; subst h; exact ⟨rfl, rfl⟩
      · injection h with h; subst h; exact ⟨rfl, rfl⟩
    all_goals (injection h with h; subst h; exact ⟨rfl, rfl⟩)
  · injection h with h; subst h; exact ⟨rfl, rfl⟩

theorem State.loadWord_accounts {s t : State} {a v : Word} (h : s.loadWord a = .ok (v, t)) : s.Accounts t := by
  rcases (State.loadWord_eq_ok h).2 with ⟨-, h⟩ | ⟨-, -, -, rfl⟩
  · have := s.ppbRead_mem_stored a
    rw [h] at this
    exact .same this.1 this.2
  · exact .refl _

theorem State.storeWord_accounts {s t : State} {a v : Word} (h : s.storeWord a v = .ok t) : s.Accounts t := by
  rcases (State.storeWord_eq_ok h).2 with ⟨-, h⟩ | ⟨-, -, rfl⟩
  · exact .same (State.ppbWrite_mem_stored h).1 (State.ppbWrite_mem_stored h).2
  · refine fun hw => ⟨Memory.wf_writeWord a v hw, _, rfl, fun k hk => ?_⟩
    have hb : ∀ i : Nat, i < 4 → byteAddress a i ≠ k := fun i hi => hk _ (List.mem_map.2 ⟨i, List.mem_range.2 hi, rfl⟩)
    rw [State.storeTo_mem, Memory.readByte_writeWord hw]
    simp [hb]

theorem State.storeHalfword_accounts {s t : State} {a : Word} {v : Halfword} (h : s.storeHalfword a v = .ok t) :
    s.Accounts t := by
  obtain ⟨-, -, -, rfl⟩ := State.storeHalfword_eq_ok h
  refine fun hw => ⟨Memory.wf_writeHalfword a v hw, _, rfl, fun k hk => ?_⟩
  have hb : ∀ i : Nat, i < 2 → byteAddress a i ≠ k := fun i hi => hk _ (List.mem_map.2 ⟨i, List.mem_range.2 hi, rfl⟩)
  rw [State.storeTo_mem, Memory.readByte_writeHalfword hw]
  simp [hb]

theorem State.storeByte_accounts {s t : State} {a : Word} {v : Byte} (h : s.storeByte a v = .ok t) : s.Accounts t := by
  obtain ⟨-, -, rfl⟩ := State.storeByte_eq_ok h
  refine fun hw => ⟨Memory.wf_writeByte v hw (byteAddress_lt a 0), _, rfl, fun k hk => ?_⟩
  have hb : byteAddress a 0 ≠ k := hk _ (List.mem_map.2 ⟨0, List.mem_range.2 (by decide), rfl⟩)
  rw [State.storeTo_mem, Memory.readByte_writeByte hw, if_neg hb]

/-! ## Exceptions -/

theorem State.stackWords_accounts {ws : List Word} {a : Word} {s m : State} {lost : Bool}
    (h : State.stackWords ws a s = .ok (m, lost)) : s.Accounts m := by
  induction ws generalizing a s m lost with
  | nil => simp only [State.stackWords] at h; injection h with h; cases h; exact .refl _
  | cons w ws ih =>
    simp only [State.stackWords] at h
    split at h
    · exact (State.storeWord_accounts ‹_›).trans (ih h)
    · obtain ⟨r, hr, he⟩ := Access.bind_eq_ok h
      injection he with he; cases he
      exact ih (lost := r.2) hr
    · cases h
    · cases h

theorem State.vectorTo_accounts {m t : State} {e : Nat} {link : Word} (h : m.vectorTo e link = .ok t) : m.Accounts t := by
  obtain ⟨v, u, hu, rfl⟩ := State.vectorTo_eq_ok h
  exact (State.loadWord_accounts hu).to rfl rfl

theorem exceptionEntry_accounts {f s t : State} {e : Nat} {ret : Word} (hf : f.Accounts s)
    (h : exceptionEntry f e ret s = .next t) : f.Accounts t := by
  have pushed : ∀ {m lost}, State.stackWords (s.frameWords ret) s.framePointer (s.setSp s.framePointer) = .ok (m, lost) →
      f.Accounts m := fun hm => (hf.to (by simp) (by simp)).trans (State.stackWords_accounts hm)
  have failed : ∀ m : State, f.Accounts m →
      (if e = 3 || decide (s.executionPriority ≤ -1) then (.next (f.lockedUp m) : Result)
        else match m.vectorTo 3 s.excReturn with
          | .ok u => .next u
          | .hardFault _ => .next (f.lockedUp m)
          | .fault r => .fault r
          | .refused r => .refused r) = .next t → f.Accounts t := by
    intro m hm h
    split at h
    · injection h with h; subst h; exact hm.lockedUp
    · split at h
      · injection h with h; subst h; exact hm.trans (State.vectorTo_accounts ‹_›)
      · injection h with h; subst h; exact hm.lockedUp
      · cases h
      · cases h
  unfold exceptionEntry at h
  simp only at h
  split at h
  · rename_i m lost hm
    split at h
    · exact failed m (pushed hm) h
    · split at h
      · injection h with h; subst h; exact (pushed hm).trans (State.vectorTo_accounts ‹_›)
      · exact failed m (pushed hm) h
      · cases h
      · cases h
  · injection h with h; subst h; exact hf.lockedUp
  · cases h
  · cases h

theorem raiseHardFault_accounts {c : FaultCause} {f s t : State} (hf : f.Accounts s)
    (h : raiseHardFault c f s = .next t) : f.Accounts t := by
  rcases raiseHardFault_eq_next h with ⟨-, rfl⟩ | ⟨-, h⟩
  · exact hf.lockedUp
  · exact exceptionEntry_accounts (s := s.setPending 3 true) (hf.to rfl rfl) h

/-- An instruction that ends with an access accounts for its stores when what follows the access does. -/
theorem Access.conclude_accounts {α : Type} {x : Access α} {s t : State} {k : α → Result}
    (h : x.conclude s k = .next t) (hk : ∀ a, x = .ok a → k a = .next t → s.Accounts t) : s.Accounts t := by
  rcases Access.conclude_eq_next h with ⟨a, ha, h⟩ | ⟨c, -, h⟩
  · exact hk a ha h
  · exact raiseHardFault_accounts (.refl s) h

theorem State.unstack_accounts {s t : State} {fp : Word} {f : Frame} (h : s.unstack fp = .ok (f, t)) : s.Accounts t := by
  unfold State.unstack at h
  obtain ⟨⟨_, _⟩, h1, h⟩ := Access.bind_eq_ok h
  obtain ⟨⟨_, _⟩, h2, h⟩ := Access.bind_eq_ok h
  obtain ⟨⟨_, _⟩, h3, h⟩ := Access.bind_eq_ok h
  obtain ⟨⟨_, _⟩, h4, h⟩ := Access.bind_eq_ok h
  obtain ⟨⟨_, _⟩, h5, h⟩ := Access.bind_eq_ok h
  obtain ⟨⟨_, _⟩, h6, h⟩ := Access.bind_eq_ok h
  obtain ⟨⟨_, _⟩, h7, h⟩ := Access.bind_eq_ok h
  obtain ⟨⟨_, _⟩, h8, h⟩ := Access.bind_eq_ok h
  injection h with h; cases h
  exact (State.loadWord_accounts h1).trans <| (State.loadWord_accounts h2).trans <| (State.loadWord_accounts h3).trans <|
    (State.loadWord_accounts h4).trans <| (State.loadWord_accounts h5).trans <| (State.loadWord_accounts h6).trans <|
    (State.loadWord_accounts h7).trans (State.loadWord_accounts h8)

theorem exceptionReturn_accounts {f s t : State} {v : Word} (hf : f.Accounts s)
    (h : exceptionReturn f s v = .next t) : f.Accounts t := by
  obtain ⟨k, -, -, ⟨fr, w, hu, rfl, -⟩ | rfl | ⟨c, h⟩⟩ := exceptionReturn_eq_next h
  · exact ((hf.to (u := s.endException) rfl rfl).trans (State.unstack_accounts hu)).to (by simp) (by simp)
  · exact hf.lockedUp
  · exact raiseHardFault_accounts (s := s.endException) (hf.to rfl rfl) h

theorem bxWritePc_accounts {f s t : State} {v : Word} (hf : f.Accounts s) (h : bxWritePc f s v = .next t) :
    f.Accounts t := by
  rcases bxWritePc_eq_next h with ⟨-, -, h⟩ | rfl
  · exact exceptionReturn_accounts hf h
  · exact hf.to rfl rfl

/-! ## Multiple transfers -/

theorem State.loadRegisters_accounts {rs : List LowReg} {a : Word} {s t : State}
    (h : State.loadRegisters rs a s = .ok t) : s.Accounts t := by
  induction rs generalizing a s with
  | nil => injection h with h; subst h; exact .refl _
  | cons r rs ih =>
    obtain ⟨⟨v, u⟩, hu, h⟩ := Access.bind_eq_ok h
    exact ((State.loadWord_accounts hu).to (u := u.writeLow r v) rfl rfl).trans (ih h)

theorem State.storeWords_accounts {ws : List Word} {a : Word} {s t : State}
    (h : State.storeWords ws a s = .ok t) : s.Accounts t := by
  induction ws generalizing a s with
  | nil => injection h with h; subst h; exact .refl _
  | cons w ws ih =>
    obtain ⟨u, hu, h⟩ := Access.bind_eq_ok h
    exact (State.storeWord_accounts hu).trans (ih h)

theorem State.loadSomeRegisters_accounts {keep : Option LowReg} {rs : List LowReg} {a : Word} {s t : State}
    (h : State.loadSomeRegisters keep rs a s = .ok t) : s.Accounts t := by
  induction rs generalizing a s with
  | nil => injection h with h; subst h; exact .refl _
  | cons r rs ih =>
    simp only [State.loadSomeRegisters] at h
    split at h
    · refine State.Accounts.trans ?_ (ih h)
      by_cases hb : (s.drawBit.1 && keep != some r) = true
      · rw [if_pos hb]
        rename_i u hu
        exact ((State.loadWord_accounts hu).from (s := s) rfl rfl).to rfl rfl
      · rw [if_neg hb]
        exact .same rfl rfl
    · exact (ih h).from rfl rfl
    all_goals
      by_cases hb : s.drawBit.1 = true
      · rw [if_pos hb] at h
        cases h
      · rw [if_neg hb] at h
        exact (ih h).from rfl rfl

theorem State.storeSomeWords_accounts {ws : List Word} {a : Word} {s t : State}
    (h : State.storeSomeWords ws a s = .ok t) : s.Accounts t := by
  induction ws generalizing a s with
  | nil => injection h with h; subst h; exact .refl _
  | cons w ws ih =>
    simp only [State.storeSomeWords] at h
    split at h
    · refine State.Accounts.trans ?_ (ih h)
      by_cases hb : s.drawBit.1 = true
      · rw [if_pos hb]
        rename_i u hu
        exact (State.storeWord_accounts hu).from (s := s) rfl rfl
      · rw [if_neg hb]
        exact .same rfl rfl
    · exact (ih h).from rfl rfl
    all_goals
      by_cases hb : s.drawBit.1 = true
      · rw [if_pos hb] at h
        cases h
      · rw [if_neg hb] at h
        exact (ih h).from rfl rfl

theorem concludeTransfer_accounts {s t : State} {base : Word} {whole part : Access State} {k : State → Result}
    (h : concludeTransfer s base whole part k = .next t) (hw : ∀ u, whole = .ok u → k u = .next t → s.Accounts t)
    (hp : ∀ u, part = .ok u → s.Accounts u) : s.Accounts t := by
  rcases concludeTransfer_eq_next h with ⟨u, hu, h⟩ | ⟨c, -, h | ⟨u, hu, h⟩ | ⟨d, -, h⟩⟩
  · exact hw u hu h
  · exact raiseHardFault_accounts (.refl s) h
  · exact raiseHardFault_accounts (hp u hu) h
  · exact raiseHardFault_accounts (.refl s) h

/-! ## Instructions -/

theorem addInto_accounts {rd : LowReg} {a b : Word} {c : Bool} {s t : State} (h : addInto rd a b c s = .next t) :
    s.Accounts t := by injection h with h; subst h; exact .same rfl rfl

theorem logicInto_accounts {rd : LowReg} {r : Word} {s t : State} (h : logicInto rd r s = .next t) :
    s.Accounts t := by injection h with h; subst h; exact .same rfl rfl

theorem shiftInto_accounts {f : Word → Nat → ShiftResult} {rd : LowReg} {v : Word} {n : Nat} {s t : State}
    (h : shiftInto f rd v n s = .next t) : s.Accounts t := by
  unfold shiftInto at h
  split at h
  · exact logicInto_accounts h
  · injection h with h; subst h; exact .same rfl rfl

theorem compare_accounts {a b : Word} {c : Bool} {s t : State} (h : compare a b c s = .next t) : s.Accounts t := by
  injection h with h; subst h; exact .same rfl rfl

theorem moveInto_accounts {rd : LowReg} {v : Word} {s t : State} (h : moveInto rd v s = .next t) : s.Accounts t := by
  injection h with h; subst h; exact .same rfl rfl

theorem loadWordInto_accounts {rt : LowReg} {a : Word} {s t : State} (h : loadWordInto rt a s = .next t) :
    s.Accounts t :=
  Access.conclude_accounts h fun (v, u) hu hk => by
    injection hk with hk; subst hk; exact (State.loadWord_accounts hu).to rfl rfl

theorem loadHalfwordInto_accounts {f : Halfword → Word} {rt : LowReg} {a : Word} {s t : State}
    (h : loadHalfwordInto f rt a s = .next t) : s.Accounts t :=
  Access.conclude_accounts h fun v _ hk => by injection hk with hk; subst hk; exact .same rfl rfl

theorem loadByteInto_accounts {f : Byte → Word} {rt : LowReg} {a : Word} {s t : State}
    (h : loadByteInto f rt a s = .next t) : s.Accounts t :=
  Access.conclude_accounts h fun v _ hk => by injection hk with hk; subst hk; exact .same rfl rfl

theorem storeWordFrom_accounts {rt : LowReg} {a : Word} {s t : State} (h : storeWordFrom rt a s = .next t) :
    s.Accounts t :=
  Access.conclude_accounts h fun u hu hk => by
    injection hk with hk; subst hk; exact (State.storeWord_accounts hu).to rfl rfl

theorem storeHalfwordFrom_accounts {rt : LowReg} {a : Word} {s t : State} (h : storeHalfwordFrom rt a s = .next t) :
    s.Accounts t :=
  Access.conclude_accounts h fun u hu hk => by
    injection hk with hk; subst hk; exact (State.storeHalfword_accounts hu).to rfl rfl

theorem storeByteFrom_accounts {rt : LowReg} {a : Word} {s t : State} (h : storeByteFrom rt a s = .next t) :
    s.Accounts t :=
  Access.conclude_accounts h fun u hu hk => by
    injection hk with hk; subst hk; exact (State.storeByte_accounts hu).to rfl rfl

theorem execLdm_accounts {rn : LowReg} {list : BitVec 8} {s t : State} (h : execLdm rn list s = .next t) :
    s.Accounts t := by
  unfold execLdm at h
  simp only at h
  split at h
  · cases h
  · refine concludeTransfer_accounts h (fun u hu hk => ?_) fun _ => State.loadSomeRegisters_accounts
    injection hk with hk; subst hk
    refine (State.loadRegisters_accounts hu).to ?_ ?_ <;> split <;> rfl

theorem State.stmWords_accounts (s : State) (rn : LowReg) (rs : List LowReg) : s.Accounts (s.stmWords rn rs).2 := by
  unfold State.stmWords; split <;> exact .same rfl rfl

theorem execStm_accounts {rn : LowReg} {list : BitVec 8} {s t : State} (h : execStm rn list s = .next t) :
    s.Accounts t := by
  have hs := s.stmWords_accounts rn (registersOf list)
  unfold execStm at h
  simp only at h
  split at h
  · cases h
  · refine concludeTransfer_accounts h (fun u hu hk => ?_) fun u hu => hs.trans (State.storeSomeWords_accounts hu)
    injection hk with hk; subst hk
    exact (hs.trans (State.storeWords_accounts hu)).to rfl rfl

theorem execPush_accounts {lr : Bool} {list : BitVec 8} {s t : State} (h : execPush lr list s = .next t) :
    s.Accounts t := by
  unfold execPush at h
  simp only at h
  split at h
  · cases h
  · refine concludeTransfer_accounts h (fun u hu hk => ?_) fun _ => State.storeSomeWords_accounts
    injection hk with hk; subst hk
    exact (State.storeWords_accounts hu).to (by simp) (by simp)

theorem execPop_accounts {pc : Bool} {list : BitVec 8} {s t : State} (h : execPop pc list s = .next t) :
    s.Accounts t := by
  unfold execPop at h
  simp only at h
  split at h
  · refine concludeTransfer_accounts h (fun u hu hk => ?_) fun _ => State.loadSomeRegisters_accounts
    split at hk
    · rename_i u' hu'
      exact bxWritePc_accounts (s := u'.setSp _)
        (((State.loadRegisters_accounts hu).trans (State.loadWord_accounts hu')).to (by simp) (by simp)) hk
    · exact Access.conclude_accounts hk fun _ hp => raiseHardFault_accounts (State.loadSomeRegisters_accounts hp)
    · cases hk
    · cases hk
  · split at h
    · cases h
    · refine concludeTransfer_accounts h (fun u hu hk => ?_) fun _ => State.loadSomeRegisters_accounts
      injection hk with hk; subst hk
      exact (State.loadRegisters_accounts hu).to (by simp) (by simp)

theorem execWfe_accounts {s t : State} (h : execWfe s = .next t) : s.Accounts t := by
  unfold execWfe at h
  simp only at h
  split at h
  · injection h with h; subst h; exact .same rfl rfl
  · split at h <;> (injection h with h; subst h; exact .same rfl rfl)
  · exact raiseHardFault_accounts (s := s.drawWfeReading.2) (.same rfl rfl) h

theorem execSvc_accounts {imm8 : BitVec 8} {s t : State} (h : execSvc imm8 s = .next t) : s.Accounts t := by
  unfold execSvc at h
  split at h
  · exact raiseHardFault_accounts (.refl s) h
  · unfold raiseSvCall at h
    exact exceptionEntry_accounts (s := s.setPending 11 true) (.same rfl rfl) h

/-- Every instruction that answers accounts for its stores. -/
theorem exec_accounts {i : Instr} {s t : State} (h : exec i s = .next t) : s.Accounts t := by
  cases i <;> simp only [exec] at h
  case ldm => exact execLdm_accounts h
  case stm => exact execStm_accounts h
  case push => exact execPush_accounts h
  case pop => exact execPop_accounts h
  case wfe => exact execWfe_accounts h
  case svc => exact execSvc_accounts h
  case bkpt | udf | udfW => exact raiseHardFault_accounts (.refl s) h
  case bx =>
    unfold execBx at h
    split at h
    · cases h
    · exact bxWritePc_accounts (.refl s) h
  case addHigh =>
    unfold execAddHigh at h
    simp only at h
    split at h
    · cases h
    · split at h <;> (injection h with h; subst h; exact .same (by simp) (by simp))
  case movHigh =>
    unfold execMovHigh at h
    split at h <;> (injection h with h; subst h; exact .same (by simp) (by simp))
  case mrs =>
    unfold execMrs at h
    split at h
    · cases h
    · injection h with h; subst h; exact .same (by simp) (by simp)
  case msr =>
    unfold execMsr at h
    split at h
    · cases h
    · injection h with h; subst h; exact .same (by simp) (by simp)
  case blx =>
    unfold execBlx at h
    split at h
    · cases h
    · injection h with h; subst h; exact .same rfl rfl
  case cmpHigh =>
    unfold execCmpHigh at h
    split at h
    · cases h
    · exact compare_accounts h
  case bCond =>
    unfold execBCond at h
    split at h <;> (injection h with h; subst h; exact .same rfl rfl)
  case wfi =>
    unfold execWfi at h
    split at h <;> (injection h with h; subst h; exact .same rfl rfl)
  case addSp | subSp => injection h with h; subst h; exact .same (by simp) (by simp)
  case adcs | addsReg | addsImm3 | addsImm8 | rsbs | sbcs | subsReg | subsImm3 | subsImm8 => exact addInto_accounts h
  case ands | orrs | eors | bics | movsReg | movsImm | mvns | muls => exact logicInto_accounts h
  case asrsImm | asrsReg | lslsImm | lslsReg | lsrsImm | lsrsReg | rors => exact shiftInto_accounts h
  case cmn | cmpImm | cmpLow => exact compare_accounts h
  case rev | rev16 | revsh | sxtb | sxth | uxtb | uxth => exact moveInto_accounts h
  case ldrLit | ldrImm | ldrSp | ldrReg => exact loadWordInto_accounts h
  case ldrhImm | ldrhReg | ldrshReg => exact loadHalfwordInto_accounts h
  case ldrbImm | ldrbReg | ldrsbReg => exact loadByteInto_accounts h
  case strImm | strSp | strReg => exact storeWordFrom_accounts h
  case strhImm | strhReg => exact storeHalfwordFrom_accounts h
  case strbImm | strbReg => exact storeByteFrom_accounts h
  all_goals (injection h with h; subst h; exact .same rfl rfl)

/-! ## Steps -/

/-- A core step that answers: an exception entered, an instruction run, or HardFault raised by the fetch. -/
theorem State.coreStep_eq_next {s t : State} {b : Bool} (h : s.coreStep b = .next t) :
    (∃ e, b = true ∧ s.nextException = some e ∧ exceptionEntry s e s.pc s = .next t) ∨
      (∃ i, s.fetchInstr = .ok i ∧ exec i s = .next t) ∨
      ∃ c, s.fetchInstr = .hardFault c ∧ raiseHardFault c s s = .next t := by
  unfold State.coreStep at h
  split at h
  · rename_i e he
    split at he
    · exact .inl ⟨e, ‹_›, he, h⟩
    · cases he
  · exact .inr (Access.conclude_eq_next h)

/-- A step without a reset that answers: lockup or sleep goes on, or the core step of the state that is ready. -/
theorem State.proceed_eq_next {s t : State} {i : HostInput} (h : s.proceed i = .next t) :
    t = s.runAgents i ∨ t = (s.runAgents i).wakeUp i.wake ∨
      ((s.runAgents i).wakeUp i.wake).coreStep i.takeException = .next t := by
  unfold State.proceed at h
  simp only at h
  split at h
  · injection h with h; exact .inl h.symm
  · split at h
    · injection h with h; exact .inr (.inl h.symm)
    · exact .inr (.inr h)

/-- A step without a reset changes no byte of memory but those it records as stored (R502). -/
theorem State.proceed_accounts {s t : State} {i : HostInput} (h : s.proceed i = .next t) : s.Accounts t := by
  rcases State.proceed_eq_next h with rfl | rfl | h
  · exact .same (by simp) (by simp)
  · exact .same (by simp) (by simp)
  · refine State.Accounts.from ?_ (by simp) (by simp) (s' := (s.runAgents i).wakeUp i.wake)
    rcases State.coreStep_eq_next h with ⟨e, -, -, h⟩ | ⟨i, -, h⟩ | ⟨c, -, h⟩
    · exact exceptionEntry_accounts (.refl _) h
    · exact exec_accounts h
    · exact raiseHardFault_accounts (.refl _) h

end Sys2Proof.Machine
end

