-- ==== Sys2Proof/Tests/Slice0.lean ====
section
/-!
SUPPORT. Tests on fixed values: a word written out from its encoding for every instruction, worked examples of
95_test_vectors.md and of the rules, and a state that meets the hypotheses of each statement.
-/

namespace Sys2Proof.Machine

set_option Elab.async false

/-! ## One word for every row of the opcode table, its fields filled in by hand (30_encoding.md R186 to R197) -/

theorem test_decode_movsReg : decode16 0b00000000_00101010#16 = .ok (.movsReg 2 5) := by decide +kernel
theorem test_decode_lslsImm : decode16 0b00000100_11101010#16 = .ok (.lslsImm 2 5 19) := by decide +kernel
theorem test_decode_lsrsImm : decode16 0b00001100_11101010#16 = .ok (.lsrsImm 2 5 19) := by decide +kernel
theorem test_decode_asrsImm : decode16 0b00010100_11101010#16 = .ok (.asrsImm 2 5 19) := by decide +kernel
theorem test_decode_addsReg : decode16 0b00011001_01011010#16 = .ok (.addsReg 2 3 5) := by decide +kernel
theorem test_decode_subsReg : decode16 0b00011011_01011010#16 = .ok (.subsReg 2 3 5) := by decide +kernel
theorem test_decode_addsImm3 : decode16 0b00011101_01011010#16 = .ok (.addsImm3 2 3 5) := by decide +kernel
theorem test_decode_subsImm3 : decode16 0b00011111_01011010#16 = .ok (.subsImm3 2 3 5) := by decide +kernel
theorem test_decode_movsImm : decode16 0b00100010_10110101#16 = .ok (.movsImm 2 181) := by decide +kernel
theorem test_decode_cmpImm : decode16 0b00101011_10110101#16 = .ok (.cmpImm 3 181) := by decide +kernel
theorem test_decode_addsImm8 : decode16 0b00110001_10110101#16 = .ok (.addsImm8 1 181) := by decide +kernel
theorem test_decode_subsImm8 : decode16 0b00111001_10110101#16 = .ok (.subsImm8 1 181) := by decide +kernel
theorem test_decode_ands : decode16 0b01000000_00101001#16 = .ok (.ands 1 5) := by decide +kernel
theorem test_decode_eors : decode16 0b01000000_01101001#16 = .ok (.eors 1 5) := by decide +kernel
theorem test_decode_lslsReg : decode16 0b01000000_10101001#16 = .ok (.lslsReg 1 5) := by decide +kernel
theorem test_decode_lsrsReg : decode16 0b01000000_11101001#16 = .ok (.lsrsReg 1 5) := by decide +kernel
theorem test_decode_asrsReg : decode16 0b01000001_00101001#16 = .ok (.asrsReg 1 5) := by decide +kernel
theorem test_decode_adcs : decode16 0b01000001_01101001#16 = .ok (.adcs 1 5) := by decide +kernel
theorem test_decode_sbcs : decode16 0b01000001_10101001#16 = .ok (.sbcs 1 5) := by decide +kernel
theorem test_decode_rors : decode16 0b01000001_11101001#16 = .ok (.rors 1 5) := by decide +kernel
theorem test_decode_tst : decode16 0b01000010_00101011#16 = .ok (.tst 3 5) := by decide +kernel
theorem test_decode_rsbs : decode16 0b01000010_01011010#16 = .ok (.rsbs 2 3) := by decide +kernel
theorem test_decode_cmpLow : decode16 0b01000010_10101011#16 = .ok (.cmpLow 3 5) := by decide +kernel
theorem test_decode_cmn : decode16 0b01000010_11101011#16 = .ok (.cmn 3 5) := by decide +kernel
theorem test_decode_orrs : decode16 0b01000011_00101001#16 = .ok (.orrs 1 5) := by decide +kernel
theorem test_decode_muls : decode16 0b01000011_01011111#16 = .ok (.muls 7 3) := by decide +kernel
theorem test_decode_bics : decode16 0b01000011_10101001#16 = .ok (.bics 1 5) := by decide +kernel
theorem test_decode_mvns : decode16 0b01000011_11101010#16 = .ok (.mvns 2 5) := by decide +kernel
theorem test_decode_addHigh : decode16 0b01000100_11100001#16 = .ok (.addHigh 9 12) := by decide +kernel
theorem test_decode_cmpHigh : decode16 0b01000101_11100011#16 = .ok (.cmpHigh 11 12) := by decide +kernel
theorem test_decode_movHigh : decode16 0b01000110_11100010#16 = .ok (.movHigh 10 12) := by decide +kernel
theorem test_decode_bx : decode16 0b01000111_01110000#16 = .ok (.bx 14) := by decide +kernel
theorem test_decode_blx : decode16 0b01000111_11100000#16 = .ok (.blx 12) := by decide +kernel
theorem test_decode_ldrLit : decode16 0b01001100_10110101#16 = .ok (.ldrLit 4 181) := by decide +kernel
theorem test_decode_strReg : decode16 0b01010001_01011100#16 = .ok (.strReg 4 3 5) := by decide +kernel
theorem test_decode_strhReg : decode16 0b01010011_01011100#16 = .ok (.strhReg 4 3 5) := by decide +kernel
theorem test_decode_strbReg : decode16 0b01010101_01011100#16 = .ok (.strbReg 4 3 5) := by decide +kernel
theorem test_decode_ldrsbReg : decode16 0b01010111_01011100#16 = .ok (.ldrsbReg 4 3 5) := by decide +kernel
theorem test_decode_ldrReg : decode16 0b01011001_01011100#16 = .ok (.ldrReg 4 3 5) := by decide +kernel
theorem test_decode_ldrhReg : decode16 0b01011011_01011100#16 = .ok (.ldrhReg 4 3 5) := by decide +kernel
theorem test_decode_ldrbReg : decode16 0b01011101_01011100#16 = .ok (.ldrbReg 4 3 5) := by decide +kernel
theorem test_decode_ldrshReg : decode16 0b01011111_01011100#16 = .ok (.ldrshReg 4 3 5) := by decide +kernel
theorem test_decode_strImm : decode16 0b01100100_11011100#16 = .ok (.strImm 4 3 19) := by decide +kernel
theorem test_decode_ldrImm : decode16 0b01101100_11011100#16 = .ok (.ldrImm 4 3 19) := by decide +kernel
theorem test_decode_strbImm : decode16 0b01110100_11011100#16 = .ok (.strbImm 4 3 19) := by decide +kernel
theorem test_decode_ldrbImm : decode16 0b01111100_11011100#16 = .ok (.ldrbImm 4 3 19) := by decide +kernel
theorem test_decode_strhImm : decode16 0b10000100_11011100#16 = .ok (.strhImm 4 3 19) := by decide +kernel
theorem test_decode_ldrhImm : decode16 0b10001100_11011100#16 = .ok (.ldrhImm 4 3 19) := by decide +kernel
theorem test_decode_strSp : decode16 0b10010100_10110101#16 = .ok (.strSp 4 181) := by decide +kernel
theorem test_decode_ldrSp : decode16 0b10011100_10110101#16 = .ok (.ldrSp 4 181) := by decide +kernel
theorem test_decode_adr : decode16 0b10100010_10110101#16 = .ok (.adr 2 181) := by decide +kernel
theorem test_decode_addRdSp : decode16 0b10101010_10110101#16 = .ok (.addRdSp 2 181) := by decide +kernel
theorem test_decode_addSp : decode16 0b10110000_01010011#16 = .ok (.addSp 83) := by decide +kernel
theorem test_decode_subSp : decode16 0b10110000_11010011#16 = .ok (.subSp 83) := by decide +kernel
theorem test_decode_sxth : decode16 0b10110010_00101010#16 = .ok (.sxth 2 5) := by decide +kernel
theorem test_decode_sxtb : decode16 0b10110010_01101010#16 = .ok (.sxtb 2 5) := by decide +kernel
theorem test_decode_uxth : decode16 0b10110010_10101010#16 = .ok (.uxth 2 5) := by decide +kernel
theorem test_decode_uxtb : decode16 0b10110010_11101010#16 = .ok (.uxtb 2 5) := by decide +kernel
theorem test_decode_push : decode16 0b10110101_01010010#16 = .ok (.push true 82) := by decide +kernel
theorem test_decode_cpsie : decode16 0b10110110_01100010#16 = .ok .cpsie := by decide +kernel
theorem test_decode_cpsid : decode16 0b10110110_01110010#16 = .ok .cpsid := by decide +kernel
theorem test_decode_rev : decode16 0b10111010_00101010#16 = .ok (.rev 2 5) := by decide +kernel
theorem test_decode_rev16 : decode16 0b10111010_01101010#16 = .ok (.rev16 2 5) := by decide +kernel
theorem test_decode_revsh : decode16 0b10111010_11101010#16 = .ok (.revsh 2 5) := by decide +kernel
theorem test_decode_pop : decode16 0b10111101_01010010#16 = .ok (.pop true 82) := by decide +kernel
theorem test_decode_bkpt : decode16 0b10111110_10110101#16 = .ok (.bkpt 181) := by decide +kernel
theorem test_decode_nop : decode16 0b10111111_00000000#16 = .ok .nop := by decide +kernel
theorem test_decode_yield : decode16 0b10111111_00010000#16 = .ok .yield := by decide +kernel
theorem test_decode_wfe : decode16 0b10111111_00100000#16 = .ok .wfe := by decide +kernel
theorem test_decode_wfi : decode16 0b10111111_00110000#16 = .ok .wfi := by decide +kernel
theorem test_decode_sev : decode16 0b10111111_01000000#16 = .ok .sev := by decide +kernel
theorem test_decode_stm : decode16 0b11000011_01010010#16 = .ok (.stm 3 82) := by decide +kernel
theorem test_decode_ldm : decode16 0b11001011_01010010#16 = .ok (.ldm 3 82) := by decide +kernel
theorem test_decode_udf : decode16 0b11011110_10110101#16 = .ok (.udf 181) := by decide +kernel
theorem test_decode_svc : decode16 0b11011111_10110101#16 = .ok (.svc 181) := by decide +kernel
theorem test_decode_bCond : decode16 0b11011011_10110101#16 = .ok (.bCond .lt 181) := by decide +kernel
theorem test_decode_b : decode16 0b11100101_10111001#16 = .ok (.b 1465) := by decide +kernel
theorem test_decode_bl :
    decode32 0b1111001000000001#16 0b1111110110111001#16 = .ok (.bl 1052089) := by decide +kernel
theorem test_decode_msr :
    decode32 0b1111001110000011#16 0b1000100000010000#16 = .ok (.msr .primask 3) := by decide +kernel
theorem test_decode_mrs :
    decode32 0b1111001111101111#16 0b1000101100010000#16 = .ok (.mrs 11 .primask) := by decide +kernel
theorem test_decode_dsb :
    decode32 0b1111001110111111#16 0b1000111101001111#16 = .ok (.dsb 15) := by decide +kernel
theorem test_decode_dmb :
    decode32 0b1111001110111111#16 0b1000111101011111#16 = .ok (.dmb 15) := by decide +kernel
theorem test_decode_isb :
    decode32 0b1111001110111111#16 0b1000111101101111#16 = .ok (.isb 15) := by decide +kernel
theorem test_decode_udfW :
    decode32 0b1111011111111010#16 0b1010110000000101#16 = .ok (.udfW 0xac05) := by decide +kernel
/-! ## One step of an instruction: worked examples of spec/ -/

/-- The state an outcome goes on with. -/
def nextOf (x : Result) : Option State :=
  match x with
  | .next t => some t
  | .fault _ | .refused _ => none

theorem exists_next {x : Result} (h : (nextOf x).isSome = true) : ∃ t, x = .next t := by
  cases x with
  | next t => exact ⟨t, rfl⟩
  | fault r => cases h
  | refused r => cases h

/-- A machine in Thread mode at 0x100 with MSP 0x10001000 and the HardFault and SVCall vectors of 95_test_vectors.md. -/
def machine : State :=
  { State.reset with
    pc := 0x100
    msp := 0x10001000
    thumb := true
    mem := (Memory.writeWord [] 0x0C 0x301).writeWord 0x2C 0x401 }

/-- A machine with values in R0 to R7. -/
def machineWith (rs : List Word) : State :=
  { machine with regs := Vector.ofFn (fun i : Fin 13 => rs.getD i.val 0) }

/-- A machine in the handler of IRQ3 with an empty frame on the main stack. -/
def handler : State :=
  { machine with ipsr := 19, lr := 0xFFFFFFF9, nvic := { machine.nvic with active := setBit 0 19 true } }

-- R261: R0 = 0x7FFFFFFF, R2 = 1 gives R0 = 0x80000000, N = 1, V = 1
theorem test_adds_overflow :
    (nextOf (exec (.addsReg 0 0 2) (machineWith [0x7FFFFFFF, 0, 1]))).map (fun t => (t.readLow 0, t.apsr)) =
      some (0x80000000, ⟨true, false, false, true⟩) := by decide +kernel

-- R260: 0xFFFFFFFF + 0 with C = 1 gives 0, Z = 1, C = 1
theorem test_adcs_carry :
    (nextOf (exec (.adcs 1 3) { machineWith [0, 0xFFFFFFFF] with apsr := ⟨false, false, true, false⟩ })).map
      (fun t => (t.readLow 1, t.apsr)) = some (0, ⟨false, true, true, false⟩) := by decide +kernel

-- R269: R5 = 0, R2 = 0, C = 0 gives R5 = 0xFFFFFFFF, N = 1, C = 0
theorem test_sbcs_borrow :
    (nextOf (exec (.sbcs 5 2) machine)).map (fun t => (t.readLow 5, t.apsr.c)) = some (0xFFFFFFFF, false) := by
  decide +kernel

-- R268: 0x80000000 is the one value whose negation overflows
theorem test_rsbs_overflow :
    (nextOf (exec (.rsbs 7 7) (machineWith [0, 0, 0, 0, 0, 0, 0, 0x80000000]))).map
      (fun t => (t.readLow 7, t.apsr)) = some (0x80000000, ⟨true, false, false, true⟩) := by decide +kernel

-- R304: R1 = 0x7FFFFFFF, R2 = 0xFFFFFFFF gives N = 1, C = 0, V = 1
theorem test_cmp_signed :
    (nextOf (exec (.cmpLow 1 2) (machineWith [0, 0x7FFFFFFF, 0xFFFFFFFF]))).map (fun t => (t.readLow 1, t.apsr)) =
      some (0x7FFFFFFF, ⟨true, false, false, true⟩) := by decide +kernel

-- R285: R0 = 1, R1 = 32 gives R0 = 0, C = 1, Z = 1
theorem test_lsls_32 :
    (nextOf (exec (.lslsReg 0 1) (machineWith [1, 32]))).map (fun t => (t.readLow 0, t.apsr)) =
      some (0, ⟨false, true, true, false⟩) := by decide +kernel

-- R282: R5 = 0x80000200 by 9 gives R7 = 0xFFC00001, C = 0, N = 1
theorem test_asrs_9 :
    (nextOf (exec (.asrsImm 7 5 9) (machineWith [0, 0, 0, 0, 0, 0x80000200]))).map
      (fun t => (t.readLow 7, t.apsr)) = some (0xFFC00001, ⟨true, false, false, false⟩) := by decide +kernel

-- R288: R4 = 0x80000001 by 32 is unchanged and C is bit [31]
theorem test_rors_32 :
    (nextOf (exec (.rors 4 6) (machineWith [0, 0, 0, 0, 0x80000001, 0, 32]))).map
      (fun t => (t.readLow 4, t.apsr.c)) = some (0x80000001, true) := by decide +kernel

-- R312: R0 = R2 = 0x00010000 gives R0 = 0, Z = 1
theorem test_muls_wraps :
    (nextOf (exec (.muls 0 2) (machineWith [0x10000, 0, 0x10000]))).map (fun t => (t.readLow 0, t.apsr.z)) =
      some (0, true) := by decide +kernel

-- R315: R0 = 0x12345678 gives 0x34127856
theorem test_rev16 :
    (nextOf (exec (.rev16 0 0) (machineWith [0x12345678]))).map (fun t => t.readLow 0) = some 0x34127856 := by
  decide +kernel

-- R316: R5 = 0x00001280 gives R0 = 0xFFFF8012
theorem test_revsh :
    (nextOf (exec (.revsh 0 5) (machineWith [0, 0, 0, 0, 0, 0x1280]))).map (fun t => t.readLow 0) =
      some 0xFFFF8012 := by decide +kernel

-- R231: at 0x102 the base is rounded down: R1 = 0x108
theorem test_adr_rounds_down :
    (nextOf (exec (.adr 1 1) { machine with pc := 0x102 })).map (fun t => t.readLow 1) = some 0x108 := by
  decide +kernel

-- R306: MOV PC, R0 with R0 = 0x201 goes to 0x200
theorem test_mov_pc :
    (nextOf (exec (.movHigh 15 0) (machineWith [0x201]))).map (fun t => (t.pc, t.thumb)) = some (0x200, true) := by
  decide +kernel

-- R234: the bytes at 0x10000004 become 44 33 22 11
theorem test_str_little_endian :
    (nextOf (exec (.strImm 2 0 1) (machineWith [0x10000000, 0, 0x11223344]))).map
      (fun t => [0, 1, 2, 3].map (fun i => t.mem.readByte (0x10000004 + i))) =
      some [0x44, 0x33, 0x22, 0x11] := by decide +kernel

-- R243: byte 0x80 gives 0xFFFFFF80
theorem test_ldrsb_sign :
    (nextOf (exec (.ldrsbReg 0 1 2) { machineWith [0, 0x10000000, 1] with
      mem := Memory.writeByte [] 0x10000001 0x80 })).map (fun t => t.readLow 0) = some 0xFFFFFF80 := by
  decide +kernel

-- R250: R1 = 0x10000000 and R2, R3, R4, R6 stored from there; R1 = 0x10000010
theorem test_stm :
    (nextOf (exec (.stm 1 0x5C) (machineWith [0, 0x10000000, 2, 3, 4, 0, 6]))).map
      (fun t => (t.mem.readWord 0x10000000, t.mem.readWord 0x1000000C, t.readLow 1)) =
      some (2, 6, 0x10000010) := by decide +kernel

-- R249: with R0 in the list there is no write-back
theorem test_ldm_base_in_list :
    (nextOf (exec (.ldm 0 0x19) { machineWith [0x10000000] with
      mem := (Memory.writeWord [] 0x10000000 0xA).writeWord 0x10000008 0xC })).map
      (fun t => (t.readLow 0, t.readLow 4)) = some (0xA, 0xC) := by decide +kernel

-- R251: PUSH {R2, LR} from SP = 0x10001000
theorem test_push :
    (nextOf (exec (.push true 4) { machineWith [0, 0, 0x22] with lr := 0xC001 })).map
      (fun t => (t.sp, t.mem.readWord 0x10000FF8, t.mem.readWord 0x10000FFC)) =
      some (0x10000FF8, 0x22, 0xC001) := by decide +kernel

-- R252: POP {R0, R6, PC} with words 1, 2, 0x201
theorem test_pop_pc :
    (nextOf (exec (.pop true 0x41) { machine with
      msp := 0x10000FF4
      mem := ((Memory.writeWord [] 0x10000FF4 1).writeWord 0x10000FF8 2).writeWord 0x10000FFC 0x201 })).map
      (fun t => (t.readLow 0, t.readLow 6, t.pc, t.thumb, t.sp)) = some (1, 2, 0x200, true, 0x10001000) := by
  decide +kernel

-- R333: at 0x1000 BL with offset -4 gives LR = 0x1005 and pc = 0x1000
theorem test_bl_back :
    (nextOf (exec (.bl 0xFFFFFE) { machine with pc := 0x1000 })).map (fun t => (t.lr, t.pc)) =
      some (0x1005, 0x1000) := by decide +kernel

-- R335: BLX LR branches to the old LR
theorem test_blx_lr :
    (nextOf (exec (.blx 14) { machine with pc := 0x1000, lr := 0x301 })).map (fun t => (t.lr, t.pc, t.thumb)) =
      some (0x1003, 0x300, true) := by decide +kernel

-- R364: N = 1, C = 1 and IPSR = 15 read as 0xA000000F
theorem test_mrs_psr :
    (nextOf (exec (.mrs 1 .psr) { machine with ipsr := 15, apsr := ⟨true, false, true, false⟩ })).map
      (fun t => t.readReg 1) = some 0xA000000F := by decide +kernel

-- R366: MSR CONTROL switches to PSP in Thread mode and is ignored in Handler mode
theorem test_msr_control :
    (nextOf (exec (.msr .control 1) { machineWith [0, 2] with psp := 0x10000800 })).map (fun t => t.sp) =
        some 0x10000800 ∧
      (nextOf (exec (.msr .control 0) { handler with regs := Vector.replicate 13 2 })).map (fun t => t.spsel) =
        some false := by decide +kernel

-- 95_test_vectors.md C3: the frame of SVC #5 at 0x100, and SVCall's handler
theorem test_svc :
    (nextOf (exec (.svc 5) machine)).map
      (fun t => (t.pc, t.ipsr, t.lr, t.mem.readWord 0x10000FF8, t.mem.readWord 0x10000FFC)) =
      some (0x400, 11, 0xFFFFFFF9, 0x102, 0x01000000) := by decide +kernel

-- 95_test_vectors.md C4: BKPT without a debugger, and UDF in the HardFault handler
theorem test_bkpt :
    (nextOf (exec (.bkpt 0) machine)).map (fun t => (t.pc, t.ipsr, t.mem.readWord 0x10000FF8)) =
      some (0x300, 3, 0x100) := by decide +kernel

theorem test_udf_lockup :
    (nextOf (exec (.udf 0) { machine with ipsr := 3, nvic := { machine.nvic with active := 8 } })).map
      (fun t => (t.lockup, t.pc)) = some (true, 0x100) := by decide +kernel

-- R251, R437: from State.reset with nothing placed the first step locks up
theorem test_reset_alone_locks_up :
    (nextOf (step State.reset)).map (fun t => t.lockup) = some true := by decide +kernel

-- an instruction placed where step fetches runs as the first one
theorem test_fetch_word :
    (nextOf (step ({ machine with regs := Vector.replicate 13 1 }.withFetchWord 16 0x4159))).map
      (fun t => (t.readLow 1, t.pc)) = some (2, 0x102) := by decide +kernel

/-! ## The well-formedness checks: an ill-formed term for each (30_encoding.md R207) -/

theorem test_wellFormed_lsls_zero : (Instr.lslsImm 1 2 0).wellFormed = false := by decide
theorem test_wellFormed_add_pc_pc : (Instr.addHigh 15 15).wellFormed = false := by decide
theorem test_wellFormed_cmp_low : (Instr.cmpHigh 7 0).wellFormed = false := by decide
theorem test_wellFormed_cmp_pc : (Instr.cmpHigh 15 8).wellFormed = false ∧ (Instr.cmpHigh 8 15).wellFormed = false := by
  decide
theorem test_wellFormed_bx : (Instr.bx 13).wellFormed = false ∧ (Instr.bx 15).wellFormed = false := by decide
theorem test_wellFormed_blx : (Instr.blx 13).wellFormed = false ∧ (Instr.blx 15).wellFormed = false := by decide
theorem test_wellFormed_push : (Instr.push false 0).wellFormed = false := by decide
theorem test_wellFormed_pop : (Instr.pop false 0).wellFormed = false := by decide
theorem test_wellFormed_stm : (Instr.stm 0 0).wellFormed = false := by decide
theorem test_wellFormed_ldm : (Instr.ldm 0 0).wellFormed = false := by decide
theorem test_wellFormed_msr : (Instr.msr .apsr 13).wellFormed = false ∧ (Instr.msr .apsr 15).wellFormed = false := by
  decide
theorem test_wellFormed_mrs : (Instr.mrs 13 .psr).wellFormed = false ∧ (Instr.mrs 15 .psr).wellFormed = false := by
  decide

/-! ## Words that are refused (R205 to R208) -/

theorem test_decode_refused :
    decode16 0xB100#16 = .error .undefined ∧ decode16 0xBF50#16 = .error .unallocatedHint ∧
      decode16 0x4701#16 = .error .unpredictable ∧ decode16 0xB400#16 = .error .unpredictable ∧
      decode32 0xE800#16 0x0000#16 = .error .undefined := by decide +kernel

/-! ## The hypotheses of the statements can be met -/

theorem test_witness_DecodeEncode : (Instr.stm 5 0x70).wellFormed = true := by decide

theorem test_witness_DecodedIsEncoded : decode [0x59, 0x41, 0x00] = .ok (.adcs 1 3, [0x00]) := by decide +kernel

theorem test_witness_IllFormedRefused :
    (Instr.bx 13).wellFormed = false ∧ ∀ rd rm imm5, Instr.bx 13 ≠ .lslsImm rd rm imm5 :=
  ⟨by decide, by intro _ _ _ h; cases h⟩

/-- A machine whose memory map has one window: memory of 0x1000 bytes, and of 0x20000 bytes of stack from 0x10000000. -/
def smallMap : List Region := [
  { base := 0, size := 0x1000, kind := .memory, readable := true, writable := true, executable := true },
  { base := 0x10000000, size := 0x20000, kind := .memory, readable := true, writable := true, executable := true }]

theorem test_witness_StepRunsDecoded :
    let s := machine.withFetchWord 32 0xF000F801
    let u := s.ready
    (s.takeInput.1.reset = .absent ∧ s.scb.resetRequest = false) ∧ u.lockup = false ∧ u.sleep = .awake ∧
      (s.takeInput.1.takeException = false ∨ u.nextException = none) ∧ u.thumb = true ∧
      decode u.codeBytes = .ok (.bl 1, []) ∧
      (∀ k : Nat, k < (Instr.bl 1).length / 2 →
        (addressRegion (u.pc + BitVec.ofNat 32 (2 * k))).executeNever = false ∧
        targetOf u.memMap .fetch (u.pc + BitVec.ofNat 32 (2 * k)) 2 = .memory) := by decide +kernel

/-- What the five fetch faults of StepRunsDecoded share. -/
def fetchFaultReady (s : State) : Bool :=
  s.takeInput.1.reset == .absent && !s.scb.resetRequest && !s.ready.lockup && s.ready.sleep == .awake
    && s.ready.nextException == none && s.ready.mem.wf && decide (-1 < s.ready.executionPriority) && s.ready.canEnter 3

/-- EPSR.T clear. -/
theorem test_witness_StepRunsDecoded_thumb :
    let s := { machine with thumb := false }
    fetchFaultReady s = true ∧ s.ready.thumb = false := by decide +kernel

/-- An address in the Peripheral region, and one at which nothing answers. -/
theorem test_witness_StepRunsDecoded_fetch :
    let s := { machine with pc := 0x40000000 }
    let v := { machine with pc := 0x1000, memMap := smallMap }
    (fetchFaultReady s = true ∧ s.ready.thumb = true ∧ (addressRegion s.ready.pc).executeNever = true) ∧
      (fetchFaultReady v = true ∧ v.ready.thumb = true ∧ targetOf v.ready.memMap .fetch v.ready.pc 2 = .nothing) := by
  decide +kernel

/-- A wide instruction whose second halfword is in the Peripheral region, and an undefined one. -/
theorem test_witness_StepRunsDecoded_second :
    let s := { machine with pc := 0x3FFFFFFE, mem := machine.mem.writeHalfword 0x3FFFFFFE 0xF000 }
    let v := machine.withFetchWord 16 0xB100
    (fetchFaultReady s = true ∧ s.ready.thumb = true ∧ (addressRegion s.ready.pc).executeNever = false ∧
      targetOf s.ready.memMap .fetch s.ready.pc 2 = .memory ∧ isWide (s.ready.mem.readHalfword s.ready.pc) = true ∧
      (addressRegion (s.ready.pc + 2)).executeNever = true) ∧
      (fetchFaultReady v = true ∧ v.ready.thumb = true ∧ (addressRegion v.ready.pc).executeNever = false ∧
        targetOf v.ready.memMap .fetch v.ready.pc 2 = .memory ∧ isWide (v.ready.mem.readHalfword v.ready.pc) = false ∧
        decode v.ready.codeBytes = .error .undefined) := by decide +kernel

theorem test_witness_StepKeepsInvariant :
    ∃ t, (machine.withFetchWord 16 0x4159).inv = true ∧ step (machine.withFetchWord 16 0x4159) = .next t := by
  obtain ⟨t, ht⟩ := exists_next (x := step (machine.withFetchWord 16 0x4159)) (by decide +kernel)
  exact ⟨t, by decide +kernel, ht⟩

/-- A machine whose next input asks for a reset. -/
def resetting (r : ExternalReset) (s : State) : State :=
  { s with inputs :=
      [{ lines := 0, cpuTicks := 0, refTicks := 0, takeException := false, wake := false, reset := r }] }

/-- A reset that SYSRESETREQ asked for, and one from the host between two instructions. -/
theorem test_witness_ResetRestarts :
    { machine with scb := { machine.scb with resetRequest := true } }.scb.resetRequest = true ∧
      (resetting .betweenInstructions machine).takeInput.1.reset = .betweenInstructions ∧
      machine.ordinary .read 0 4 = true ∧ machine.ordinary .read 4 4 = true := by decide +kernel

/-- A reset inside the STR R0, [R1] at the program counter. -/
def insideStore : State :=
  resetting .insideInstruction ((machineWith [0x11223344, 0x10000000]).withFetchWord 16 0x6008)

theorem test_witness_ResetRestarts_inside :
    insideStore.scb.resetRequest = false ∧ insideStore.takeInput.1.reset = .insideInstruction ∧
      insideStore.mem.wf = true ∧
      (nextOf (insideStore.takeInput.2.proceed insideStore.takeInput.1)).map (fun u =>
        (u.ordinary .read 0 4, u.ordinary .read 4 4, u.stored)) =
      some (true, true, [0x10000000, 0x10000001, 0x10000002, 0x10000003]) := by decide +kernel

-- R404, R500: a step with a reset inside ADCS R1, R3 is a reset, with MSP and the PC from addresses 0 and 4
theorem test_reset_inside :
    let s := resetting .insideInstruction (machine.withFetchWord 16 0x4159)
    (nextOf (step { s with mem := (s.mem.writeWord 0 0x10000800).writeWord 4 0x201 })).map
      (fun t => (t.msp, t.pc, t.thumb, t.mem.readWord 0x0C)) = some (0x10000800, 0x200, true, 0x301) := by
  decide +kernel

theorem test_witness_SubtractionsSetFlags :
    (Instr.cmpHigh 2 9).wellFormed = true ∧ (Instr.cmpHigh 8 13).wellFormed = true ∧
      (Instr.cmpHigh 14 0).wellFormed = true := by decide

theorem test_witness_ImmediateShifts : (1 : BitVec 5) ≠ 0 ∧ (31 : BitVec 5) ≠ 0 := by decide

theorem test_witness_HighRegisterMoves :
    ¬((15 : Reg) = 15 ∧ (14 : Reg) = 15) ∧ ¬((13 : Reg) = 15 ∧ (15 : Reg) = 15) := by decide

/-- R1 holds the last word of SRAM's region, R2 an offset of 0. -/
theorem test_witness_WordLoads :
    let s := machineWith [0, 0x3FFFFFFC, 0]
    s.ordinary .read (s.readLow 1 + BitVec.ofNat 32 ((0 : BitVec 5).toNat * 4)) 4 = true ∧
      s.ordinary .read (s.sp + BitVec.ofNat 32 ((255 : BitVec 8).toNat * 4)) 4 = true ∧
      s.ordinary .read (s.readLow 1 + s.readLow 2) 4 = true ∧
      s.ordinary .read (BitVec.ofNat 32 ((s.pc + 4).toNat / 4 * 4 + (255 : BitVec 8).toNat * 4)) 4 = true := by
  decide +kernel

/-- SYST_CSR at R1 and the word after IPR7 at SP, which is no register. -/
theorem test_witness_WordLoads_registers :
    let s := { machineWith [0, 0xE000E010] with msp := 0xE000E420 }
    (s.readLow 1 + s.readLow 0).toNat % 4 = 0 ∧ inPpb (s.readLow 1 + s.readLow 0) = true ∧
      (s.sp + BitVec.ofNat 32 ((0 : BitVec 8).toNat * 4)).toNat % 4 = 0 ∧
      inPpb (s.sp + BitVec.ofNat 32 ((0 : BitVec 8).toNat * 4)) = true ∧
      s.sp + BitVec.ofNat 32 ((0 : BitVec 8).toNat * 4) ≠ 0xE000E010 := by decide +kernel

-- R142, R471: an LDR from SYST_CSR gets COUNTFLAG in bit [16] and clears it
theorem test_ldr_systCsr :
    (nextOf (exec (.ldrImm 0 1 0) { machineWith [0, 0xE000E010] with
      systick := { machine.systick with countFlag := true } })).map
      (fun t => ((t.readLow 0).getLsbD 16, t.systick.countFlag)) = some (true, false) := by decide +kernel

-- R56, R142: an STR of 0x20 to ISER enables IRQ5
theorem test_str_iser :
    (nextOf (exec (.strImm 0 1 0) (machineWith [0x20, 0xE000E100]))).map (fun t => (t.nvic.enable, t.pc)) =
      some (0x20, 0x102) := by decide +kernel

theorem test_witness_NarrowLoads :
    let s := machineWith [0, 0x3FFFFFFE, 1, 0x3FFFFFC0]
    s.ordinary .read (s.readLow 3 + BitVec.ofNat 32 (31 : BitVec 5).toNat) 1 = true ∧
      s.ordinary .read (s.readLow 3 + BitVec.ofNat 32 ((31 : BitVec 5).toNat * 2)) 2 = true ∧
      s.ordinary .read (s.readLow 1 + s.readLow 2) 1 = true ∧ s.ordinary .read (s.readLow 1 + s.readLow 0) 2 = true := by
  decide +kernel

theorem test_witness_WordStores :
    let s := machineWith [0, 0x3FFFFFFC, 0]
    s.mem.wf = true ∧ s.ordinary .write (s.readLow 1 + BitVec.ofNat 32 ((0 : BitVec 5).toNat * 4)) 4 = true ∧
      s.ordinary .write (s.sp + BitVec.ofNat 32 ((255 : BitVec 8).toNat * 4)) 4 = true ∧
      s.ordinary .write (s.readLow 1 + s.readLow 2) 4 = true := by decide +kernel

/-- ISER at R1, and AIRCR at R2 with a word that stops and one that does not. -/
theorem test_witness_WordStores_registers :
    let s := machineWith [0x05FA0002, 0xE000E100, 0xE000ED0C, 0, 0x05FA0004]
    (s.readLow 1 + s.readLow 3).toNat % 4 = 0 ∧ inPpb (s.readLow 1 + s.readLow 3) = true ∧
      ¬(s.readLow 1 + s.readLow 3 = 0xE000ED0C) ∧
      (s.readLow 2 + s.readLow 3 = 0xE000ED0C ∧ (s.readLow 0).toNat / 65536 = 0x05FA ∧
        (s.readLow 0).getLsbD 1 = true) ∧
      (s.readLow 4).toNat / 65536 = 0x05FA ∧ (s.readLow 4).getLsbD 1 = false := by decide +kernel

theorem test_witness_NarrowStores :
    let s := machineWith [0, 0x3FFFFFFE, 1, 0x3FFFFFC0]
    s.mem.wf = true ∧ s.ordinary .write (s.readLow 3 + BitVec.ofNat 32 (31 : BitVec 5).toNat) 1 = true ∧
      s.ordinary .write (s.readLow 3 + BitVec.ofNat 32 ((31 : BitVec 5).toNat * 2)) 2 = true ∧
      s.ordinary .write (s.readLow 1 + s.readLow 2) 1 = true ∧
      s.ordinary .write (s.readLow 1 + s.readLow 0) 2 = true := by decide +kernel

/-- One unaligned address for each form. -/
theorem test_witness_UnalignedAccessFaults :
    let s := machineWith [0, 0x10000002, 1]
    s.mem.wf = true ∧ -1 < s.executionPriority ∧ s.canEnter 3 = true ∧
      (s.readLow 1 + BitVec.ofNat 32 ((1 : BitVec 5).toNat * 4)).toNat % 4 ≠ 0 ∧
      (s.readLow 2 + BitVec.ofNat 32 ((1 : BitVec 5).toNat * 2)).toNat % 2 ≠ 0 ∧
      (s.readLow 1 + s.readLow 0).toNat % 4 ≠ 0 ∧ (s.readLow 1 + s.readLow 2).toNat % 2 ≠ 0 ∧
      (0x0C : BitVec 8) ≠ 0 ∧ (s.readLow 1).toNat % 4 ≠ 0 := by decide +kernel

/-- R1 points at nothing, R2 into the Private Peripheral Bus. -/
theorem test_witness_BusErrorFaults :
    let s := machineWith [0, 0xA0000000, 0xE000E100]
    s.mem.wf = true ∧ -1 < s.executionPriority ∧ s.canEnter 3 = true ∧
      aligned (s.readLow 1 + s.readLow 0) 4 = true ∧ inPpb (s.readLow 1 + s.readLow 0) = false ∧
      targetOf s.memMap .read (s.readLow 1 + s.readLow 0) 4 = .nothing ∧
      targetOf s.memMap .write (s.readLow 1 + s.readLow 0) 4 = .nothing ∧
      inPpb (s.readLow 2 + BitVec.ofNat 32 (3 : BitVec 5).toNat) = true ∧
      inPpb (s.readLow 2 + BitVec.ofNat 32 ((1 : BitVec 5).toNat * 2)) = true := by decide +kernel

theorem test_witness_BusErrorFaults_forms :
    let s := machineWith [0, 0xA0000000, 0xE000E100]
    SingleAccess s (.strReg 3 1 0) .write 0xA0000000 4 ∧ SingleAccess s (.ldrbImm 3 2 3) .read 0xE000E103 1 ∧
      MultipleAccess s (.ldm 1 0x0C) .read 0xA0000000 [2, 3] :=
  ⟨.strReg 3 1 0, .ldrbImm 3 2 3, .ldm 1 0x0C (by decide)⟩

/-- LDM of two words of which only the first is memory, and POP of the same; PUSH of nine words of which only the
lowest, below the frame that HardFault pushes, is not. -/
theorem test_witness_BusErrorFaults_multiple :
    let s := { machineWith [0, 0x9FFFFFFC] with msp := 0x9FFFFFFC }
    let v := { machine with memMap := smallMap, msp := 0x10000020 }
    (s.mem.wf = true ∧ -1 < s.executionPriority ∧ s.canEnter 3 = true ∧ aligned (s.readLow 1) 4 = true ∧
      s.sp = s.readLow 1 ∧ targetOf s.memMap .read (s.readLow 1 + BitVec.ofNat 32 0) 4 = .memory ∧
      targetOf s.memMap .read (s.readLow 1 + BitVec.ofNat 32 4) 4 = .nothing ∧
      inPpb (s.readLow 1) = false ∧ inPpb (s.readLow 1 + BitVec.ofNat 32 4) = false) ∧
      (v.mem.wf = true ∧ -1 < v.executionPriority ∧ v.canEnter 3 = true ∧
        targetOf v.memMap .write (v.sp - BitVec.ofNat 32 36) 4 = .nothing ∧
        ∀ k : Nat, k < 9 → inPpb (v.sp - BitVec.ofNat 32 36 + BitVec.ofNat 32 (4 * k)) = false ∧
          targetOf v.memMap .write (v.sp - BitVec.ofNat 32 36 + BitVec.ofNat 32 (4 * k)) 4 ≠ .device) := by
  decide +kernel

theorem test_witness_LdmLoads :
    (0x19 : BitVec 8) ≠ 0 ∧
      (machineWith [0x10000000]).ordinaryWords .read 0x10000000 (registersOf 0x19).length = true := by decide +kernel

theorem test_witness_StmStores :
    let s := machineWith [0x10000000, 0, 0, 0x10000010]
    (0x19 : BitVec 8) ≠ 0 ∧
      ((0x19 : BitVec 8).getLsbD (0 : LowReg).val = true → ∀ r : LowReg, r.val < (0 : LowReg).val →
        (0x19 : BitVec 8).getLsbD r.val = false) ∧
      ((0x10 : BitVec 8).getLsbD (3 : LowReg).val = true → ∀ r : LowReg, r.val < (3 : LowReg).val →
        (0x10 : BitVec 8).getLsbD r.val = false) ∧
      s.mem.wf = true ∧ s.ordinaryWords .write (s.readLow 0) (registersOf 0x19).length = true ∧
      s.ordinaryWords .write (s.readLow 3) (registersOf 0x10).length = true := by decide +kernel

theorem test_witness_StmBaseNotLowest :
    let s := machineWith [0, 0, 0, 0, 0, 0x10000000]
    (0x70 : BitVec 8).getLsbD (5 : LowReg).val = true ∧ (0x70 : BitVec 8).getLsbD (4 : LowReg).val = true ∧
      (4 : LowReg).val < (5 : LowReg).val ∧ s.mem.wf = true ∧
      s.ordinaryWords .write (s.readLow 5) (registersOf 0x70).length = true := by decide +kernel

theorem test_witness_PushStores :
    (Instr.push true 0).wellFormed = true ∧ (Instr.push false 0xFF).wellFormed = true ∧ machine.mem.wf = true ∧
      machine.ordinaryWords .write (machine.sp - BitVec.ofNat 32 4) 1 = true ∧
      machine.ordinaryWords .write (machine.sp - BitVec.ofNat 32 32) 8 = true := by decide +kernel

theorem test_witness_PopLoads :
    (Instr.pop true 0).wellFormed = true ∧ (Instr.pop false 0xFF).wellFormed = true ∧
      machine.ordinaryWords .read machine.sp 8 = true ∧ handler.ordinaryWords .read handler.sp 1 = true ∧
      (handler.handlerMode = true → handler.number (handler.sp + BitVec.ofNat 32 0) 4 / 16 ≠ 0xFFFFFFF) := by
  decide +kernel

theorem test_witness_IndirectBranches :
    (14 : Reg) ≠ 13 ∧ (14 : Reg) ≠ 15 ∧
      ¬(machine.handlerMode = true ∧ (machine.readReg 14).toNat / 16 = 0xFFFFFFF) := by decide +kernel

theorem test_witness_SpecialRegisters : (14 : Reg) ≠ 13 ∧ (14 : Reg) ≠ 15 := by decide

/-- Both cases of WFI: nothing pending, and PendSV pending under PRIMASK. -/
theorem test_witness_WfiSleeps :
    (¬∃ e ∈ exceptionNumbers, machine.isPending e = true ∧ machine.isEnabled e = true ∧
        (∀ a ∈ exceptionNumbers, machine.isActive a = true → machine.priority e < machine.priority a) ∧
        machine.priority e < 256) ∧
      ∃ e ∈ exceptionNumbers, ({ machine with primask := true }.setPending 14 true).isPending e = true ∧
        ({ machine with primask := true }.setPending 14 true).isEnabled e = true ∧
        (∀ a ∈ exceptionNumbers, ({ machine with primask := true }.setPending 14 true).isActive a = true →
          ({ machine with primask := true }.setPending 14 true).priority e <
            ({ machine with primask := true }.setPending 14 true).priority a) ∧
        ({ machine with primask := true }.setPending 14 true).priority e < 256 := by decide +kernel

/-- The premises of WfeReadings on the state; the reading itself is an open constant, of which one of the three holds. -/
theorem test_witness_WfeReadings :
    machine.mem.wf = true ∧ -1 < machine.executionPriority ∧ machine.canEnter 3 = true ∧
      ∀ r : WfeReading, r = .nop ∨ r = .generic ∨ r = .fault :=
  ⟨by decide +kernel, by decide +kernel, by decide +kernel, by intro r; cases r <;> simp⟩

theorem test_witness_SvcEntersSvCall :
    machine.mem.wf = true ∧ machine.priority 11 < machine.executionPriority ∧ machine.canEnter 11 = true := by
  decide +kernel

theorem test_witness_SvcEscalates :
    let s := { machine with primask := true }
    s.mem.wf = true ∧ s.executionPriority ≤ s.priority 11 ∧ -1 < s.executionPriority ∧ s.canEnter 3 = true := by
  decide +kernel

theorem test_witness_FaultInstructions :
    machine.mem.wf = true ∧ -1 < machine.executionPriority ∧ machine.canEnter 3 = true := by decide +kernel

/-- A machine in the HardFault handler. -/
def faulted (s : State) : State := { s with ipsr := 3, nvic := { s.nvic with active := 8 } }

/-- The handler, a misaligned access in it, a bus error, and a byte of the Private Peripheral Bus. -/
theorem test_witness_FaultInHandlerLocksUp :
    let s := faulted (machineWith [0, 0xA0000000, 0xE000E100, 0x10000002])
    s.isActive 3 = true ∧ s.executionPriority ≤ -1 ∧ aligned (s.readLow 3 + s.readLow 0) 4 = false ∧
      (inPpb (s.readLow 1 + s.readLow 0) = false ∧
        targetOf s.memMap .write (s.readLow 1 + s.readLow 0) 4 = .nothing) ∧
      inPpb (s.readLow 2 + s.readLow 0) = true ∧ aligned (s.readLow 3) 4 = false := by decide +kernel

/-- LDM of two words of which only the first is memory, in the handler. -/
theorem test_witness_FaultInHandlerLocksUp_multiple :
    let s := faulted (machineWith [0, 0x9FFFFFFC])
    s.isActive 3 = true ∧ aligned (s.readLow 1) 4 = true ∧
      (∀ k : Nat, k < 2 → inPpb (s.readLow 1 + BitVec.ofNat 32 (4 * k)) = false ∧
        targetOf s.memMap .read (s.readLow 1 + BitVec.ofNat 32 (4 * k)) 4 ≠ .device) ∧
      targetOf s.memMap .read (s.readLow 1 + BitVec.ofNat 32 (4 * 1)) 4 = .nothing := by decide +kernel

/-- EPSR.T clear, an address in the Peripheral region, and an undefined encoding, in the handler. -/
theorem test_witness_FaultInHandlerLocksUp_fetch :
    let ready (s : State) := s.takeInput.1.reset == .absent && !s.scb.resetRequest && !s.ready.lockup
      && s.ready.sleep == .awake && s.ready.isActive 3
    let s := faulted { machine with thumb := false }
    let v := faulted { machine with pc := 0x40000000 }
    let w := (faulted machine).withFetchWord 16 0xB100
    (ready s = true ∧ s.ready.thumb = false) ∧
      (ready v = true ∧ v.ready.thumb = true ∧ (addressRegion v.ready.pc).executeNever = true) ∧
      (ready w = true ∧ w.ready.thumb = true ∧ (addressRegion w.ready.pc).executeNever = false ∧
        targetOf w.ready.memMap .fetch w.ready.pc 2 = .memory ∧ isWide (w.ready.mem.readHalfword w.ready.pc) = false ∧
        decode w.ready.codeBytes = .error .undefined) := by decide +kernel

-- R145, R445: an undefined instruction in the HardFault handler is lockup
theorem test_fetch_lockup :
    (nextOf (step ((faulted machine).withFetchWord 16 0xB100))).map (fun t => (t.lockup, t.pc)) =
      some (true, 0x100) := by decide +kernel

theorem test_witness_EntryIsTaken :
    19 ∈ exceptionNumbers ∧ machine.mem.wf = true ∧ machine.canEnter 19 = true := by decide +kernel

/-- Both clauses of FrameIsAligned. -/
theorem test_witness_FrameIsAligned :
    machine.sp.toNat % 8 = 0 ∧
      (let s := { machine with msp := 0x10000FFC }
       s.sp.toNat % 8 ≠ 0 ∧ 3 ∈ exceptionNumbers ∧ s.mem.wf = true ∧ s.canEnter 3 = true) := by decide +kernel

/-- A return to Thread mode on the main stack from `handler`, by BX LR. -/
theorem test_witness_ExceptionReturns :
    (14 : Reg) ≠ 13 ∧ (14 : Reg) ≠ 15 ∧ handler.handlerMode = true ∧ handler.readReg 14 = 0xFFFFFFF9 ∧
      handler.isActive handler.ipsr.toNat = true ∧
      (∀ e : Nat, e < 48 → handler.isActive e = true → e = handler.ipsr.toNat) ∧
      handler.ordinaryWords .read handler.mainSp 8 = true ∧
      handler.number (handler.mainSp + BitVec.ofNat 32 28) 4 % 64 = 0 ∧ handler.scb.sleepOnExit = false := by
  decide +kernel

/-- `handler` with R4 and an EXC_RETURN value on its stack below the frame. -/
def popHandler (v : Word) : State :=
  { handler with msp := 0x10000FF8, mem := (handler.mem.writeWord 0x10000FF8 4).writeWord 0x10000FFC v }

/-- The same return by POP of R4 and PC. -/
theorem test_witness_ExceptionReturns_pop :
    let s := popHandler 0xFFFFFFF9
    s.handlerMode = true ∧ s.ordinaryWords .read s.sp ((registersOf 0x10).length + 1) = true ∧
      BitVec.ofNat 32 (s.number (s.sp + BitVec.ofNat 32 (4 * (registersOf 0x10).length)) 4) = 0xFFFFFFF9 ∧
      s.isActive s.ipsr.toNat = true ∧ (∀ e : Nat, e < 48 → s.isActive e = true → e = s.ipsr.toNat) ∧
      s.ordinaryWords .read (s.mainSp + BitVec.ofNat 32 (4 * 2)) 8 = true ∧
      s.number (s.mainSp + BitVec.ofNat 32 (4 * 2) + BitVec.ofNat 32 28) 4 % 64 = 0 ∧ s.scb.sleepOnExit = false := by
  decide +kernel

-- R252, R440: that POP loads R4, frees the frame and ends the handler
theorem test_pop_return :
    (nextOf (exec (.pop true 0x10) (popHandler 0xFFFFFFF9))).map
      (fun t => (t.readReg 4, t.sp, t.ipsr, t.nvic.active)) = some (4, 0x10001020, 0, 0) := by decide +kernel

/-- A bit vector of 48 bits has no bit from 48 on, so the bounded check above says it for every number. -/
theorem test_isActive_bound (s : State) (e : Nat) (h : 48 ≤ e) : s.isActive e = false :=
  BitVec.getLsbD_of_ge s.nvic.active e h

theorem test_witness_EntryThenReturn :
    machine.inv = true ∧ 19 ∈ exceptionNumbers ∧ machine.isActive 19 = false ∧
      (machine.handlerMode = true ↔ machine.nvic.active ≠ 0) ∧ machine.scb.sleepOnExit = false ∧
      machine.canEnter 19 = true ∧ machine.ordinaryWords .read machine.framePointer 8 = true := by decide +kernel

/-- A reserved value, and a legal one while the exception is not active. -/
theorem test_witness_BadReturnsStop :
    let s := { handler with lr := 0xFFFFFFF5 }
    let u := { handler with nvic := { handler.nvic with active := 0 } }
    s.handlerMode = true ∧ (s.readReg 14).toNat / 16 = 0xFFFFFFF ∧ (s.readReg 14).toNat % 16 = 5 ∧
      u.handlerMode = true ∧ (u.readReg 14).toNat / 16 = 0xFFFFFFF ∧ (u.readReg 14).toNat % 16 = 9 ∧
      u.isActive u.ipsr.toNat = false := by decide +kernel

/-- A return to Thread mode while exception 11 is active too; a return to Handler mode while no other is; a return to
Thread mode with a stacked IPSR of 3; a return to Handler mode, exception 11 active, with a stacked IPSR of 0. -/
theorem test_witness_BadReturnsStop_modes :
    let two := { handler with nvic := { handler.nvic with active := setBit handler.nvic.active 11 true } }
    let alone := { handler with lr := 0xFFFFFFF1 }
    let stacked := { handler with mem := handler.mem.writeWord 0x1000101C 3 }
    let nested := { two with lr := 0xFFFFFFF1 }
    ((two.readReg 14).toNat % 16 = 9 ∧ two.isActive 11 = true ∧ 11 ≠ two.ipsr.toNat) ∧
      ((alone.readReg 14).toNat % 16 = 1 ∧ ∀ e : Nat, e < 48 → alone.isActive e = true → e = alone.ipsr.toNat) ∧
      (stacked.isActive stacked.ipsr.toNat = true ∧ stacked.ordinaryWords .read stacked.mainSp 8 = true ∧
        (stacked.readReg 14).toNat % 16 = 9 ∧
        (∀ e : Nat, e < 48 → stacked.isActive e = true → e = stacked.ipsr.toNat) ∧
        stacked.number (stacked.mainSp + 0x1C) 4 % 64 ≠ 0) ∧
      (nested.isActive nested.ipsr.toNat = true ∧ nested.ordinaryWords .read nested.mainSp 8 = true ∧
        (nested.readReg 14).toNat % 16 = 1 ∧ nested.isActive 11 = true ∧
        nested.number (nested.mainSp + 0x1C) 4 % 64 = 0) := by decide +kernel

/-- A reserved value loaded by POP. -/
theorem test_witness_BadReturnsStop_pop :
    let s := popHandler 0xFFFFFFF5
    s.handlerMode = true ∧ s.ordinaryWords .read s.sp ((registersOf 0x10).length + 1) = true ∧
      s.number (s.sp + BitVec.ofNat 32 (4 * (registersOf 0x10).length)) 4 = 0xFFFFFFF5 := by decide +kernel

/-- PendSV is taken by an awake machine; with nothing pending none is. -/
theorem test_witness_NextExceptionIsMostUrgent :
    let s := { machine with mem := machine.mem.writeWord 0x38 0x501 }.setPending 14 true
    (s.takeInput.1.reset = .absent ∧ s.scb.resetRequest = false) ∧ s.ready.lockup = false ∧ s.ready.sleep = .awake ∧
      s.takeInput.1.takeException = true ∧ s.ready.nextException = some 14 ∧ s.ready.mem.wf = true ∧
      s.ready.canEnter 14 = true ∧ machine.nextException = none := by decide +kernel

theorem test_witness_PrimaskMasks :
    let s := { machine with primask := true }.setPending 3 true
    s.inv = true ∧ s.primask = true ∧ s.nextException = some 3 := by decide +kernel

theorem test_witness_PriorityValues : machine.inv = true ∧ 47 ∈ exceptionNumbers ∧ 11 ∈ exceptionNumbers := by
  decide +kernel

theorem test_witness_OnlyExceptionsChangeMode :
    ∃ t, exec (.svc 0) machine = .next t ∧ t.ipsr ≠ machine.ipsr := by
  obtain ⟨t, ht⟩ := exists_next (x := exec (.svc 0) machine) (by decide +kernel)
  refine ⟨t, ht, ?_⟩
  have h : (nextOf (exec (.svc 0) machine)).map (fun t => t.ipsr) = some 11 := by decide +kernel
  rw [ht] at h
  simp only [nextOf, Option.map_some, Option.some.injEq] at h
  rw [h]
  decide

theorem test_witness_LockupRunsNothing :
    let s := { machine with lockup := true }
    s.lockup = true ∧ s.takeInput.1.reset = .absent ∧ s.scb.resetRequest = false := by decide +kernel

/-- Sleep after WFI that lasts, and sleep after WFE that lasts. -/
theorem test_witness_SleepLasts :
    let s := machine.fallAsleep .interrupt
    let v := machine.fallAsleep .event
    s.sleep = .asleep .interrupt false ∧ s.lockup = false ∧ s.takeInput.1.reset = .absent ∧
      s.scb.resetRequest = false ∧ s.takeInput.1.wake = false ∧
      ((s.takeInput.2).runAgents s.takeInput.1).wakeCondition = false ∧
      v.sleep = .asleep .event false ∧ v.takeInput.1.wake = false ∧
      ((v.takeInput.2).runAgents v.takeInput.1).event = false ∧
      ((v.takeInput.2).runAgents v.takeInput.1).nextException = none := by decide +kernel

/-- The wake-ups: PendSV pending under PRIMASK after WFI; the event register and PendSV after WFE; a spurious one. -/
theorem test_witness_SleepLasts_wakes :
    let s := { machine with primask := true }.setPending 14 true |>.fallAsleep .interrupt
    let v := { machine with event := true }.fallAsleep .event
    let w := (machine.setPending 14 true).fallAsleep .event
    let x := { machine.fallAsleep .interrupt with inputs :=
      [{ lines := 0, cpuTicks := 0, refTicks := 0, takeException := false, wake := true, reset := .absent }] }
    ((s.takeInput.2).runAgents s.takeInput.1).wakeCondition = true ∧ s.ready.sleep = .awake ∧
      ((v.takeInput.2).runAgents v.takeInput.1).event = true ∧ v.ready.sleep = .awake ∧
      ((w.takeInput.2).runAgents w.takeInput.1).nextException = some 14 ∧ w.ready.sleep = .awake ∧
      x.takeInput.1.wake = true ∧ x.ready.sleep = .awake := by decide +kernel

/-- A return by BX LR from the main stack with nothing pending, and with SysTick pending. -/
theorem test_witness_SleepOnExit :
    let s := { handler with scb := { handler.scb with sleepOnExit := true } }
    let v := s.setPending 15 true
    s.handlerMode = true ∧ s.readReg 14 = 0xFFFFFFF9 ∧ s.isActive s.ipsr.toNat = true ∧
      (∀ e : Nat, e < 48 → s.isActive e = true → e = s.ipsr.toNat) ∧ s.ordinaryWords .read s.mainSp 8 = true ∧
      s.number (s.mainSp + 0x1C) 4 % 64 = 0 ∧ s.scb.sleepOnExit = true ∧
      (¬∃ e ∈ exceptionNumbers, s.isPending e = true ∧ s.isEnabled e = true) ∧
      ∃ e ∈ exceptionNumbers, v.isPending e = true ∧ v.isEnabled e = true := by decide +kernel

/-- A return by POP of R4 and PC to the process stack. -/
theorem test_witness_SleepOnExit_process :
    let h := popHandler 0xFFFFFFFD
    let s := { h with psp := 0x10000800, scb := { h.scb with sleepOnExit := true } }
    s.handlerMode = true ∧ s.ordinaryWords .read s.sp ((registersOf 0x10).length + 1) = true ∧
      BitVec.ofNat 32 (s.number (s.sp + BitVec.ofNat 32 (4 * (registersOf 0x10).length)) 4) = 0xFFFFFFFD ∧
      s.isActive s.ipsr.toNat = true ∧ (∀ e : Nat, e < 48 → s.isActive e = true → e = s.ipsr.toNat) ∧
      s.ordinaryWords .read s.processSp 8 = true ∧ s.number (s.processSp + 0x1C) 4 % 64 = 0 ∧
      s.scb.sleepOnExit = true := by decide +kernel

theorem test_witness_IcsrPendsAndClears :
    ¬((0x10000000 : Word).getLsbD 28 = true ∧ (0x10000000 : Word).getLsbD 27 = true) ∧
      ¬((0x02000000 : Word).getLsbD 26 = true ∧ (0x02000000 : Word).getLsbD 25 = true) := by decide

/-- One word for each clause of AircrKey. -/
theorem test_witness_AircrKey :
    (0x00000004 : Word).toNat / 65536 ≠ 0x05FA ∧
      ((0x05FA0002 : Word).toNat / 65536 = 0x05FA ∧ (0x05FA0002 : Word).getLsbD 1 = true) ∧
      ((0x05FA0004 : Word).toNat / 65536 = 0x05FA ∧ (0x05FA0004 : Word).getLsbD 1 = false ∧
        (0x05FA0004 : Word).getLsbD 2 = true) ∧
      machine.ordinary .read 0 4 = true ∧ machine.ordinary .read 4 4 = true := by decide +kernel

/-- The bounded numbers of NvicSetAndClear, LinesPendInterrupts and PriorityRegisters at their ends. -/
theorem test_witness_bounds : (0 < 32 ∧ 31 < 32) ∧ (0 < 4 ∧ 3 < 4) := by decide

/-- The counter that SysTickRegisters lets run. -/
theorem test_witness_SysTickRegisters :
    { machine with systick := { machine.systick with enable := true, reload := 99 } }.systick.enable = true := by decide

/-- One counter for each clause of SysTickCounts. -/
theorem test_witness_SysTickCounts :
    machine.systick.enable = false ∧
      ({ machine.systick with enable := true }.enable = true ∧
        ({ machine.systick with enable := true }).current.toNat = 0) ∧
      ({ machine.systick with enable := true, current := 1 }).current.toNat ≠ 0 := by decide

theorem test_witness_StoreThenLoad :
    machine.mem.wf = true ∧ machine.ordinary .write 0x3FFFFFFC 4 = true ∧
      machine.ordinary .read 0x3FFFFFFC 4 = true := by decide +kernel

end Sys2Proof.Machine
end

section
/-!
SUPPORT. What the updates of the state leave unchanged, in the terms of the statements: `KeepsRegisters`, `KeepsSystem`,
`KeepsMemory`, `RegistersOnly` and `WritesLow`.
-/

namespace Sys2Proof.Machine

/-! ## Clearing low bits of a word (10_state.md R35, 00_scope.md R11) -/

theorem and_allOnes_shiftLeft (v : Word) (k : Nat) : v &&& BitVec.allOnes 32 <<< k = (v >>> k) <<< k := by
  apply BitVec.eq_of_getLsbD_eq
  intro i hi
  simp only [BitVec.getLsbD_and, BitVec.getLsbD_shiftLeft, BitVec.getLsbD_ushiftRight, BitVec.getLsbD_allOnes]
  by_cases hk : i < k
  · simp [hk]
  · simp [hi, hk, show k + (i - k) = i by omega, show i - k < 32 by omega]

theorem toNat_shiftRight_shiftLeft (v : Word) (k : Nat) : ((v >>> k) <<< k).toNat = v.toNat / 2 ^ k * 2 ^ k := by
  have h : v.toNat / 2 ^ k * 2 ^ k ≤ v.toNat := Nat.div_mul_le_self _ _
  rw [BitVec.toNat_shiftLeft, BitVec.toNat_ushiftRight, Nat.shiftLeft_eq, Nat.shiftRight_eq_div_pow]
  exact Nat.mod_eq_of_lt (by omega)

theorem alignWord_toNat (v : Word) : (alignWord v).toNat = v.toNat / 4 * 4 := by
  have e : alignWord v = (v >>> 2) <<< 2 := and_allOnes_shiftLeft v 2
  simpa [e] using toNat_shiftRight_shiftLeft v 2

theorem clearBit0_toNat (v : Word) : (clearBit0 v).toNat = v.toNat / 2 * 2 := by
  have e : clearBit0 v = (v >>> 1) <<< 1 := and_allOnes_shiftLeft v 1
  simpa [e] using toNat_shiftRight_shiftLeft v 1

theorem alignWord_eq_self_iff (v : Word) : alignWord v = v ↔ v.toNat % 4 = 0 := by
  rw [BitVec.toNat_eq, alignWord_toNat]
  omega

theorem getLsbD_zero_eq_decide (v : Word) : v.getLsbD 0 = decide (v.toNat % 2 = 1) := by
  simp [BitVec.getLsbD, Nat.testBit_zero]

/-! ## The current stack pointer -/

theorem State.onProcessStack_congr {s t : State} (hi : t.ipsr = s.ipsr) (hs : t.spsel = s.spsel) :
    t.onProcessStack = s.onProcessStack := by
  simp [State.onProcessStack, State.handlerMode, hi, hs]

/-- The current stack pointer after a write to it (10_state.md R35). -/
@[simp] theorem State.sp_setSp (s : State) (v : Word) : (s.setSp v).sp = alignWord v :=
  s.readReg_writeReg_self 13 v (by decide)

theorem State.alignWord_sp (s : State) : alignWord s.sp = s.sp := by
  unfold State.sp State.processSp State.mainSp
  split <;> exact alignWord_alignWord _

theorem State.sp_mod_four (s : State) : s.sp.toNat % 4 = 0 := (alignWord_eq_self_iff _).1 s.alignWord_sp

/-- A stack pointer that moves by words stays a stack pointer. -/
theorem State.alignWord_sp_add (s : State) (n : Nat) :
    alignWord (s.sp + BitVec.ofNat 32 (4 * n)) = s.sp + BitVec.ofNat 32 (4 * n) := by
  have := s.sp_mod_four
  rw [alignWord_eq_self_iff, BitVec.toNat_add, BitVec.toNat_ofNat]
  omega

theorem State.alignWord_sp_sub (s : State) (n : Nat) :
    alignWord (s.sp - BitVec.ofNat 32 (4 * n)) = s.sp - BitVec.ofNat 32 (4 * n) := by
  have := s.sp_mod_four
  rw [alignWord_eq_self_iff, BitVec.toNat_sub, BitVec.toNat_ofNat]
  omega

/-! ## Reading a register after an update -/

theorem reg_cases (r : Reg) : r.val < 13 ∨ r = 13 ∨ r = 14 ∨ r = 15 := by
  revert r; decide

theorem State.readReg_of_lt (s : State) {r : Reg} (h : r.val < 13) : s.readReg r = s.regs[r.val] := dif_pos h

@[simp] theorem State.readReg_toReg (s : State) (r : LowReg) : s.readReg r.toReg = s.readLow r :=
  s.readReg_of_lt (Nat.lt_trans r.isLt (by decide))

/-- What a register other than the PC reads as depends on the register file and the selection of the stack only. -/
theorem State.readReg_congr {s t : State} (hr : t.regs = s.regs) (hm : t.msp = s.msp) (hp : t.psp = s.psp)
    (hl : t.lr = s.lr) (hi : t.ipsr = s.ipsr) (hs : t.spsel = s.spsel) {r : Reg} (h : r ≠ 15) :
    t.readReg r = s.readReg r := by
  rcases reg_cases r with hlt | rfl | rfl | rfl
  · simp [State.readReg_of_lt _ hlt, hr]
  · change t.sp = s.sp
    simp [State.sp, State.mainSp, State.processSp, State.onProcessStack_congr hi hs, hm, hp]
  · exact hl
  · exact absurd rfl h

/-! ## What is kept -/

/-- An update of none of what a register reads as keeps every register. -/
theorem KeepsRegisters.of_eq {s t : State} (written : List Reg) (hr : t.regs = s.regs) (hm : t.msp = s.msp)
    (hp : t.psp = s.psp) (hl : t.lr = s.lr) (hi : t.ipsr = s.ipsr) (hs : t.spsel = s.spsel) :
    KeepsRegisters s t written where
  register _ hr15 _ := State.readReg_congr hr hm hp hl hi hs hr15
  mainSp _ := by simp [State.mainSp, hm]
  processSp _ := by simp [State.processSp, hp]

theorem KeepsRegisters.refl (s : State) (written : List Reg) : KeepsRegisters s s written :=
  .of_eq written rfl rfl rfl rfl rfl rfl

/-- One update after another, on the same stack. -/
theorem KeepsRegisters.trans {s t u : State} {written written' : List Reg} (h : KeepsRegisters s t written)
    (h' : KeepsRegisters t u written') (hp : t.onProcessStack = s.onProcessStack) :
    KeepsRegisters s u (written ++ written') where
  register r hr hn := by
    simp only [List.mem_append, not_or] at hn
    rw [h'.register r hr hn.2, h.register r hr hn.1]
  mainSp hn := by
    simp only [List.mem_append, not_or] at hn
    rw [h'.mainSp (by rw [hp]; exact hn.imp_left And.right), h.mainSp (hn.imp_left And.left)]
  processSp hn := by
    simp only [List.mem_append, not_or] at hn
    rw [h'.processSp (by rw [hp]; exact hn.imp_left And.right), h.processSp (hn.imp_left And.left)]

/-- The same registers named in another way. -/
theorem KeepsRegisters.congr {s t : State} {written written' : List Reg} (h : KeepsRegisters s t written)
    (hw : ∀ r, r ∈ written → r ∈ written') : KeepsRegisters s t written' where
  register r hr hn := h.register r hr (fun hm => hn (hw r hm))
  mainSp hn := h.mainSp (hn.imp_left fun hm hm' => hm (hw _ hm'))
  processSp hn := h.processSp (hn.imp_left fun hm hm' => hm (hw _ hm'))

theorem KeepsMemory.of_eq {s t : State} (h : t.mem = s.mem) : KeepsMemory s t := fun k => by rw [h]

theorem keepsRegisters_setSp (s : State) (v : Word) : KeepsRegisters s (s.setSp v) [13] where
  register r hr hn := by
    rcases reg_cases r with hlt | rfl | rfl | rfl
    · simp [State.readReg_of_lt _ hlt]
    · exact absurd List.mem_cons_self hn
    · exact s.setSp_lr v
    · exact absurd rfl hr
  mainSp h := by simp [State.mainSp, h.resolve_left (by decide)]
  processSp h := by simp [State.processSp, h.resolve_left (by decide)]

theorem keepsRegisters_setLr (s : State) (v : Word) : KeepsRegisters s { s with lr := v } [14] where
  register r hr hn := by
    rcases reg_cases r with hlt | rfl | rfl | rfl
    · simp [State.readReg_of_lt _ hlt]
    · rfl
    · exact absurd List.mem_cons_self hn
    · exact absurd rfl hr
  mainSp _ := rfl
  processSp _ := rfl

/-- A write to a register of the register file (00_scope.md R7). -/
theorem State.writeReg_of_lt (s : State) {r : Reg} (h : r.val < 13) (v : Word) :
    s.writeReg r v = { s with regs := s.regs.set r.val v } := dif_pos h

theorem keepsRegisters_writeReg (s : State) {rd : Reg} (v : Word) (h : rd ≠ 15) :
    KeepsRegisters s (s.writeReg rd v) [rd] := by
  rcases reg_cases rd with hlt | rfl | rfl | rfl
  · rw [s.writeReg_of_lt hlt]
    refine ⟨fun r hr hn => ?_, fun _ => rfl, fun _ => rfl⟩
    rcases reg_cases r with hlt' | rfl | rfl | rfl
    · have hne : rd.val ≠ r.val := fun e => hn (List.mem_singleton.2 (Fin.ext e.symm))
      simp [State.readReg_of_lt _ hlt', hne]
    · rfl
    · rfl
    · exact absurd rfl hr
  · exact keepsRegisters_setSp s v
  · exact keepsRegisters_setLr s v
  · exact absurd rfl h

@[simp] theorem State.writeReg_toReg (s : State) (rd : LowReg) (v : Word) :
    s.writeReg rd.toReg v = s.writeLow rd v :=
  s.writeReg_of_lt (Nat.lt_trans rd.isLt (by decide)) v

theorem keepsRegisters_writeLow (s : State) (rd : LowReg) (v : Word) :
    KeepsRegisters s (s.writeLow rd v) [rd.toReg] := by
  rw [← s.writeReg_toReg]
  exact keepsRegisters_writeReg s v (by revert rd; decide)

theorem State.readLow_writeLow_self (s : State) (rd : LowReg) (v : Word) : (s.writeLow rd v).readLow rd = v := by
  simp [State.readLow]

theorem KeepsSystem.trans {s t u : State} (h : KeepsSystem s t) (h' : KeepsSystem t u) : KeepsSystem s u :=
  ⟨h'.ipsr.trans h.ipsr, h'.thumb.trans h.thumb, h'.primask.trans h.primask, h'.spsel.trans h.spsel,
    h'.nvic.trans h.nvic, h'.scb.trans h.scb, h'.systick.trans h.systick, h'.event.trans h.event,
    h'.sleep.trans h.sleep, h'.lockup.trans h.lockup, h'.memMap.trans h.memMap, h'.inputs.trans h.inputs⟩

theorem KeepsSystem.onProcessStack {s t : State} (h : KeepsSystem s t) : t.onProcessStack = s.onProcessStack :=
  State.onProcessStack_congr h.ipsr h.spsel

theorem keepsSystem_setSp (s : State) (v : Word) : KeepsSystem s (s.setSp v) := by
  constructor <;> simp

/-- A register write but to the PC: the PC, the flags, the system and memory are kept. -/
theorem State.writeReg_frame (s : State) {rd : Reg} (v : Word) (h : rd ≠ 15) :
    (s.writeReg rd v).pc = s.pc ∧ (s.writeReg rd v).apsr = s.apsr ∧ KeepsSystem s (s.writeReg rd v) := by
  rcases reg_cases rd with hlt | rfl | rfl | rfl
  · rw [s.writeReg_of_lt hlt]
    exact ⟨rfl, rfl, by constructor <;> rfl⟩
  · exact ⟨s.setSp_pc v, s.setSp_apsr v, keepsSystem_setSp s v⟩
  · exact ⟨rfl, rfl, by constructor <;> rfl⟩
  · exact absurd rfl h

/-- An instruction that ends by going on to the next one. -/
theorem RegistersOnly.advance {s u : State} {written : List Reg} (n : Nat) (hpc : u.pc = s.pc)
    (hr : KeepsRegisters s u written) (hs : KeepsSystem s u) (hm : u.mem = s.mem) :
    RegistersOnly s (u.advance n) (BitVec.ofNat 32 n) written where
  pc := by rw [State.advance_pc, hpc]
  registers := by
    simpa using hr.trans (.of_eq (t := u.advance n) [] rfl rfl rfl rfl rfl rfl) hs.onProcessStack
  system := hs.trans (by constructor <;> rfl)
  memory := .of_eq hm

/-- An instruction that writes at most the flags. -/
theorem registersOnly_flags (s : State) (f : Apsr) : RegistersOnly s (({ s with apsr := f }).advance 2) 2 [] :=
  .advance 2 rfl (.of_eq [] rfl rfl rfl rfl rfl rfl) (by constructor <;> rfl) rfl

/-- An instruction that writes a low register, and the flags it may set besides. -/
theorem writesLow_flags (s : State) (rd : LowReg) (v : Word) (f : Apsr) :
    WritesLow s (({ s.writeLow rd v with apsr := f }).advance 2) rd v where
  value := s.readLow_writeLow_self rd v
  frame := .advance 2 rfl ((keepsRegisters_writeLow s rd v).trans (.of_eq [] rfl rfl rfl rfl rfl rfl) rfl)
    (by constructor <;> rfl) rfl

theorem writesLow_advance (s : State) (rd : LowReg) (v : Word) : WritesLow s ((s.writeLow rd v).advance 2) rd v :=
  writesLow_flags s rd v s.apsr

end Sys2Proof.Machine
end

section
/-!
SUPPORT. The flags of an addition, a subtraction, a logical result and a shift (00_scope.md R12, R13, R16 to
R19), and the shared forms of the data processing instructions.
-/

namespace Sys2Proof.Machine

/-! ## N and Z (R13) -/

theorem flagsAre_of_result (r : Word) (c v : Bool) :
    FlagsAre { n := r.getLsbD 31, z := decide (r = 0), c := c, v := v } r c v where
  n := by
    have h : r.msb = decide (r.toInt < 0) := BitVec.msb_eq_toInt
    rw [← h, BitVec.msb_eq_getLsbD_last]
  z := by simp [BitVec.toNat_eq]
  c := rfl
  v := rfl

theorem logicInto_eq (rd : LowReg) (r : Word) (s : State) :
    ∃ t, logicInto rd r s = .next t ∧ WritesLow s t rd r ∧ FlagsAre t.apsr r s.apsr.c s.apsr.v :=
  ⟨_, rfl, writesLow_flags s rd r _, flagsAre_of_result r _ _⟩

/-! ## Addition and subtraction (R12) -/

/-- The exact signed sum is not the one of the 32-bit result exactly when it is out of range. -/
theorem addWithCarry_overflow (a b : Word) (c : Bool) :
    (addWithCarry a b c).overflow = outOfRange (a.toInt + b.toInt + c.toNat) := by
  have h : (addWithCarry a b c).result.toInt = (a.toInt + b.toInt + c.toNat).bmod (2 ^ 32) := by
    rw [addWithCarry_result, BitVec.toInt_add, BitVec.toInt_add]
    cases c <;> simp [Int.bmod_add_bmod]
  have ho : (addWithCarry a b c).overflow =
      decide ((addWithCarry a b c).result.toInt ≠ a.toInt + b.toInt + c.toNat) := rfl
  rw [ho, h, outOfRange, decide_eq_decide]
  generalize a.toInt + b.toInt + c.toNat = x
  rw [Int.bmod_def]
  split <;> omega

theorem addInto_eq (rd : LowReg) (a b : Word) (c : Bool) (s : State) :
    ∃ t, addInto rd a b c s = .next t ∧ WritesLow s t rd (a + b + BitVec.ofNat 32 c.toNat) ∧
      FlagsAre t.apsr (a + b + BitVec.ofNat 32 c.toNat) (decide (2 ^ 32 ≤ a.toNat + b.toNat + c.toNat))
        (outOfRange (a.toInt + b.toInt + c.toNat)) := by
  rw [← addWithCarry_result, ← addWithCarry_overflow]
  exact ⟨_, rfl, writesLow_flags s rd _ _, flagsAre_of_result _ _ _⟩

theorem compare_eq (a b : Word) (c : Bool) (s : State) :
    ∃ t, compare a b c s = .next t ∧ RegistersOnly s t 2 [] ∧
      FlagsAre t.apsr (a + b + BitVec.ofNat 32 c.toNat) (decide (2 ^ 32 ≤ a.toNat + b.toNat + c.toNat))
        (outOfRange (a.toInt + b.toInt + c.toNat)) := by
  rw [← addWithCarry_result, ← addWithCarry_overflow]
  exact ⟨_, rfl, registersOnly_flags s _, flagsAre_of_result _ _ _⟩

/-- The borrow that subtracting with carry `c` takes off. -/
theorem sub_eq_add_not (a b : Word) (c : Bool) :
    a + ~~~b + BitVec.ofNat 32 c.toNat = a - b - BitVec.ofNat 32 (1 - bitValue c) := by
  apply BitVec.eq_of_toNat_eq
  have := b.isLt
  cases c <;> simp [bitValue, BitVec.toNat_add, BitVec.toNat_sub, BitVec.toNat_not] <;> omega

theorem sub_carry_iff (a b : Word) (c : Bool) :
    2 ^ 32 ≤ a.toNat + (~~~b).toNat + c.toNat ↔ b.toNat + (1 - bitValue c) ≤ a.toNat := by
  have := b.isLt
  cases c <;> simp only [bitValue, BitVec.toNat_not, Bool.toNat_true, Bool.toNat_false, if_true, Bool.false_eq_true,
    if_false] <;> omega

theorem sub_signed (a b : Word) (c : Bool) :
    a.toInt + (~~~b).toInt + c.toNat = a.toInt - b.toInt - (1 - bitValue c : Nat) := by
  have h : (~~~b).toInt = -1 - b.toInt := by
    rw [BitVec.toInt_eq_toNat_cond, BitVec.toInt_eq_toNat_cond, BitVec.toNat_not]
    split <;> split <;> omega
  rw [h]
  cases c <;> simp only [bitValue, Bool.toNat_true, Bool.toNat_false, if_true, Bool.false_eq_true, if_false] <;> omega

/-- A subtraction with carry is the addition of the complement (R268 to R272). -/
theorem subInto_eq (rd : LowReg) (a b : Word) (c : Bool) (s : State) :
    ∃ t, addInto rd a (~~~b) c s = .next t ∧ WritesLow s t rd (a - b - BitVec.ofNat 32 (1 - bitValue c)) ∧
      FlagsAre t.apsr (a - b - BitVec.ofNat 32 (1 - bitValue c)) (decide (b.toNat + (1 - bitValue c) ≤ a.toNat))
        (outOfRange (a.toInt - b.toInt - (1 - bitValue c : Nat))) := by
  simpa only [sub_eq_add_not, sub_carry_iff, sub_signed] using addInto_eq rd a (~~~b) c s

/-- Without a borrow. -/
theorem subInto_true_eq (rd : LowReg) (a b : Word) (s : State) :
    ∃ t, addInto rd a (~~~b) true s = .next t ∧ WritesLow s t rd (a - b) ∧
      FlagsAre t.apsr (a - b) (decide (b.toNat ≤ a.toNat)) (outOfRange (a.toInt - b.toInt)) := by
  simpa [bitValue] using subInto_eq rd a b true s

theorem compareSub_eq (a b : Word) (s : State) :
    ∃ t, compare a (~~~b) true s = .next t ∧ RegistersOnly s t 2 [] ∧
      FlagsAre t.apsr (a - b) (decide (b.toNat ≤ a.toNat)) (outOfRange (a.toInt - b.toInt)) := by
  have h := compare_eq a (~~~b) true s
  simp only [sub_eq_add_not, sub_carry_iff, sub_signed] at h
  simpa [bitValue] using h

/-- Without a carry in. -/
theorem addInto_false_eq (rd : LowReg) (a b : Word) (s : State) :
    ∃ t, addInto rd a b false s = .next t ∧ WritesLow s t rd (a + b) ∧
      FlagsAre t.apsr (a + b) (decide (2 ^ 32 ≤ a.toNat + b.toNat)) (outOfRange (a.toInt + b.toInt)) := by
  simpa using addInto_eq rd a b false s

theorem compare_false_eq (a b : Word) (s : State) :
    ∃ t, compare a b false s = .next t ∧ RegistersOnly s t 2 [] ∧
      FlagsAre t.apsr (a + b) (decide (2 ^ 32 ≤ a.toNat + b.toNat)) (outOfRange (a.toInt + b.toInt)) := by
  simpa using compare_eq a b false s

theorem bitValue_eq_toNat (b : Bool) : bitValue b = b.toNat := by cases b <;> rfl

theorem addWithCarry_comm (a b : Word) (c : Bool) : addWithCarry a b c = addWithCarry b a c := by
  unfold addWithCarry
  rw [Nat.add_comm a.toNat, Int.add_comm a.toInt]

/-! ## Operands -/

theorem immediate_eq {n : Nat} (imm : BitVec n) : immediate imm 1 = imm.setWidth 32 := by
  simp [immediate]


/-! ## The additions and subtractions of the statements -/

/-- Settles O10: each form is the shared addition on its operands. -/
theorem additionsSetFlags : Obligations.AdditionsSetFlags := by
  refine ⟨fun s rd rn rm => addInto_false_eq rd _ _ s, fun s rd rn imm3 => ?_, fun s rd imm8 => ?_,
    fun s rd rm => ?_, fun s rn rm => compare_false_eq _ _ s⟩
  · rw [← immediate_eq]; exact addInto_false_eq rd _ _ s
  · rw [← immediate_eq]; exact addInto_false_eq rd _ _ s
  · simp only [bitValue_eq_toNat]; exact addInto_eq rd _ _ _ s

/-- RSBS subtracts from 0 (R268). -/
theorem execRsbs_eq (rd rn : LowReg) (s : State) : execRsbs rd rn s = addInto rd 0 (~~~s.readLow rn) true s := by
  simp only [execRsbs, addInto, addWithCarry_comm]

/-- A well-formed high comparison has a meaning (30_encoding.md R207). -/
theorem execCmpHigh_eq {rn rm : Reg} (h : (Instr.cmpHigh rn rm).wellFormed = true) (s : State) :
    execCmpHigh rn rm s = compare (s.readReg rn) (~~~s.readReg rm) true s := by
  simp only [Instr.wellFormed, Bool.and_eq_true, Bool.not_eq_true', bne_iff_ne] at h
  obtain ⟨⟨hlow, hn⟩, hm⟩ := h
  exact if_neg (by simp_all)

/-- Settles O11: each form is the shared addition of a complement on its operands. -/
theorem subtractionsSetFlags : Obligations.SubtractionsSetFlags := by
  refine ⟨fun s rd rn rm => subInto_true_eq rd _ _ s, fun s rd rn imm3 => ?_, fun s rd imm8 => ?_,
    fun s rd rm => subInto_eq rd _ _ _ s, fun s rd rn => ?_, fun s rn rm => compareSub_eq _ _ s,
    fun s rn imm8 => ?_, fun s rn rm h => ?_⟩
  · rw [← immediate_eq]; exact subInto_true_eq rd _ _ s
  · rw [← immediate_eq]; exact subInto_true_eq rd _ _ s
  · change ∃ t, execRsbs rd rn s = .next t ∧ _
    rw [execRsbs_eq]
    simpa using subInto_true_eq rd 0 (s.readLow rn) s
  · rw [← immediate_eq]; exact compareSub_eq _ _ s
  · change ∃ t, execCmpHigh rn rm s = .next t ∧ _
    rw [execCmpHigh_eq h]
    exact compareSub_eq _ _ s

end Sys2Proof.Machine
end

section
/-!
SUPPORT. The logical operations and the shifts (00_scope.md R16 to R19).
-/

namespace Sys2Proof.Machine

/-! ## Logic -/

/-- An instruction that is the shared logical operation on a result with the property `p`. -/
theorem exec_of_logicInto {i : Instr} {rd : LowReg} {r : Word} {s : State} {p : Word → Prop}
    (hi : exec i s = logicInto rd r s) (hp : p r) :
    ∃ t r, exec i s = .next t ∧ WritesLow s t rd r ∧ FlagsAre t.apsr r s.apsr.c s.apsr.v ∧ p r := by
  obtain ⟨t, ht, hw, hf⟩ := logicInto_eq rd r s
  exact ⟨t, r, hi.trans ht, hw, hf, hp⟩

theorem movsImm_eq (s : State) (rd : LowReg) (imm8 : BitVec 8) :
    ∃ t, exec (.movsImm rd imm8) s = .next t ∧ WritesLow s t rd (imm8.setWidth 32) ∧
      t.apsr.n = false ∧ t.apsr.z = decide (imm8.toNat = 0) ∧ t.apsr.c = s.apsr.c ∧ t.apsr.v = s.apsr.v := by
  obtain ⟨t, ht, hw, hn, hz, hc, hv⟩ := logicInto_eq rd (immediate imm8 1) s
  rw [immediate_eq] at hw hn hz
  have hlt : (imm8.setWidth 32).toNat = imm8.toNat := BitVec.toNat_setWidth_of_le (by decide)
  have hpos : ¬(imm8.setWidth 32).toInt < 0 := by
    have := imm8.isLt
    rw [BitVec.toInt_eq_toNat_of_lt (by omega)]
    omega
  exact ⟨t, ht, hw, hn.trans (decide_eq_false hpos), by rw [hz, hlt], hc, hv⟩

/-- Settles O12: each form is the shared logical operation on its result, whose bits are read off. -/
theorem logicSetsNegativeAndZero : Obligations.LogicSetsNegativeAndZero := by
  intro s rd rm
  refine ⟨?_, ?_, ?_, ?_, ?_, logicInto_eq rd _ s, movsImm_eq s rd, ?_, ?_⟩
  case refine_6 => exact exec_of_logicInto rfl (BitVec.toNat_mul _ _)
  case refine_7 =>
    exact ⟨_, _, rfl, registersOnly_flags s _, flagsAre_of_result _ _ _, fun i => BitVec.getLsbD_and⟩
  all_goals refine exec_of_logicInto rfl fun i => ?_
  · exact BitVec.getLsbD_and
  · exact BitVec.getLsbD_or
  · exact BitVec.getLsbD_xor
  · rw [BitVec.getLsbD_and, BitVec.getLsbD_not]
    by_cases hi : i < 32
    · simp [hi]
    · simp [BitVec.getLsbD_of_ge _ i (Nat.le_of_not_lt hi)]
  · intro hi
    simp [hi]

/-! ## The shifts of every length (R16 to R19) -/

theorem lslC_result_toNat (v : Word) (n : Nat) : (lslC v n).result.toNat = v.toNat * 2 ^ n % 2 ^ 32 := by
  unfold lslC
  split
  · rw [BitVec.toNat_shiftLeft, Nat.shiftLeft_eq]
  · have h : v.toNat * 2 ^ n % 2 ^ 32 = 0 :=
      Nat.mod_eq_zero_of_dvd (Dvd.dvd.mul_left (Nat.pow_dvd_pow 2 (by omega)) _)
    rw [h]
    split <;> rfl

theorem lslC_carry (v : Word) (n : Nat) : (lslC v n).carry = (decide (n ≤ 32) && v.getLsbD (32 - n)) := by
  unfold lslC
  split
  · simp [show n ≤ 32 by omega]
  · split
    · subst_vars; simp
    · simp [show ¬n ≤ 32 by omega]

theorem lsrC_result_toNat (v : Word) (n : Nat) : (lsrC v n).result.toNat = v.toNat / 2 ^ n := by
  unfold lsrC
  split
  · rw [BitVec.toNat_ushiftRight, Nat.shiftRight_eq_div_pow]
  · have h : v.toNat / 2 ^ n = 0 :=
      Nat.div_eq_of_lt (Nat.lt_of_lt_of_le v.isLt (Nat.pow_le_pow_right (by decide) (by omega)))
    rw [h]
    split <;> rfl

theorem lsrC_carry (v : Word) (n : Nat) : (lsrC v n).carry = v.getLsbD (n - 1) := by
  unfold lsrC
  split
  · rfl
  · split
    · subst_vars; rfl
    · exact (BitVec.getLsbD_of_ge v (n - 1) (by omega)).symm

theorem asrC_result_toInt (v : Word) (n : Nat) : (asrC v n).result.toInt = v.toInt / 2 ^ n := by
  have e : (asrC v n).result = v.sshiftRight n := by
    unfold asrC
    split
    · rfl
    · apply BitVec.eq_of_getLsbD_eq
      intro i hi
      have hn : ¬n + i < 32 := by omega
      rw [BitVec.getLsbD_sshiftRight, if_neg hn, BitVec.msb_eq_getLsbD_last]
      cases v.getLsbD 31
      · simp [hi]
      · simp only [if_true, BitVec.getLsbD_allOnes]; simp [hi]
  rw [e, BitVec.toInt_sshiftRight, Int.shiftRight_eq_div_pow]
  norm_cast

theorem asrC_carry (v : Word) (n : Nat) : (asrC v n).carry = v.getLsbD (min n 32 - 1) := by
  unfold asrC
  split
  · rw [Nat.min_eq_left (by omega)]
  · rw [Nat.min_eq_right (by omega)]

/-- A rotation by `n` moves bit `(i + n) mod 32` to bit `i`. -/
theorem rorC_result_getLsbD (v : Word) (n i : Nat) (hi : i < 32) :
    (rorC v n).result.getLsbD i = v.getLsbD ((i + n) % 32) := by
  unfold rorC
  simp only
  split
  · rw [show (i + n) % 32 = i by omega]
  · have hm : n % 32 < 32 := Nat.mod_lt n (by decide)
    simp only [BitVec.getLsbD_or, BitVec.getLsbD_ushiftRight, BitVec.getLsbD_shiftLeft]
    by_cases hw : i < 32 - n % 32
    · rw [show (i + n) % 32 = n % 32 + i by omega]
      simp [hw]
    · rw [show (i + n) % 32 = i - (32 - n % 32) by omega, BitVec.getLsbD_of_ge v (n % 32 + i) (by omega)]
      simp [hi, hw]

theorem rorC_carry (v : Word) (n : Nat) : (rorC v n).carry = v.getLsbD ((n + 31) % 32) := by
  rw [Nat.add_comm]
  exact rorC_result_getLsbD v n 31 (by decide)

/-! ## The shift instructions -/

/-- A length of 0 moves the value and keeps C; any other length shifts (R280). -/
theorem exec_of_shiftInto {i : Instr} {shift : Word → Nat → ShiftResult} {rd : LowReg} {v : Word} {n : Nat} {s : State}
    {p : Word → Prop} {c : Bool} (hi : exec i s = shiftInto shift rd v n s) (h0 : n = 0 → p v)
    (hp : n ≠ 0 → p (shift v n).result) (hc : c = if n = 0 then s.apsr.c else (shift v n).carry) :
    ∃ t r, exec i s = .next t ∧ p r ∧ WritesLow s t rd r ∧ FlagsAre t.apsr r c s.apsr.v := by
  subst hc
  rw [hi]
  unfold shiftInto
  split
  · obtain ⟨t, ht, hw, hf⟩ := logicInto_eq rd v s
    exact ⟨t, v, ht, h0 ‹_›, hw, hf⟩
  · exact ⟨_, _, rfl, hp ‹_›, writesLow_flags s rd _ _, flagsAre_of_result _ _ _⟩

theorem rightShiftLength_eq (imm5 : BitVec 5) :
    rightShiftLength imm5 = if imm5.toNat = 0 then 32 else imm5.toNat := by
  unfold rightShiftLength
  simp [BitVec.toNat_eq]

theorem rightShiftLength_ne_zero (imm5 : BitVec 5) : rightShiftLength imm5 ≠ 0 := by
  rw [rightShiftLength_eq]; split <;> omega

theorem rightShiftLength_le (imm5 : BitVec 5) : rightShiftLength imm5 ≤ 32 := by
  have := imm5.isLt
  rw [rightShiftLength_eq]; split <;> omega

/-- Settles O13: the immediate shifts, none of which has length 0. -/
theorem immediateShifts : Obligations.ImmediateShifts := by
  refine ⟨fun s rd rm imm5 h => ?_, fun s rd rm imm5 => ?_, fun s rd rm imm5 => ?_⟩
  · have h0 : imm5.toNat ≠ 0 := fun e => h (BitVec.eq_of_toNat_eq e)
    have hlt := imm5.isLt
    refine exec_of_shiftInto rfl (fun e => absurd e h0) (fun _ => lslC_result_toNat _ _) ?_
    rw [if_neg h0, lslC_carry, decide_eq_true (by omega), Bool.true_and]
  all_goals
    rw [← rightShiftLength_eq]
    have h0 := rightShiftLength_ne_zero imm5
  · refine exec_of_shiftInto rfl (fun e => absurd e h0) (fun _ => lsrC_result_toNat _ _) ?_
    rw [if_neg h0, lsrC_carry]
  · refine exec_of_shiftInto rfl (fun e => absurd e h0) (fun _ => asrC_result_toInt _ _) ?_
    rw [if_neg h0, asrC_carry, Nat.min_eq_left (rightShiftLength_le imm5)]

theorem State.shiftLength_eq (s : State) (rs : LowReg) : s.shiftLength rs = (s.readLow rs).toNat % 256 := by
  simp [State.shiftLength]

/-- Settles O14: the shifts by a register, of every length from 0 to 255. -/
theorem registerShifts : Obligations.RegisterShifts := by
  intro s rd rs
  dsimp only
  rw [← s.shiftLength_eq]
  refine ⟨exec_of_shiftInto rfl (fun h => ?_) (fun _ => lslC_result_toNat _ _) (by rw [lslC_carry]),
    exec_of_shiftInto rfl (fun h => ?_) (fun _ => lsrC_result_toNat _ _) (by rw [lsrC_carry]),
    exec_of_shiftInto rfl (fun h => ?_) (fun _ => asrC_result_toInt _ _) (by rw [asrC_carry]),
    exec_of_shiftInto rfl (fun h i hi => ?_) (fun _ => rorC_result_getLsbD _ _) (by rw [rorC_carry])⟩
  · rw [h, Nat.pow_zero, Nat.mul_one, Nat.mod_eq_of_lt (s.readLow rd).isLt]
  · rw [h, Nat.pow_zero, Nat.div_one]
  · rw [h, pow_zero, Int.ediv_one]
  · rw [h, Nat.add_zero, Nat.mod_eq_of_lt hi]

end Sys2Proof.Machine
end

section
/-!
SUPPORT. The moves and additions of any register, the address forms, and the branches (00_scope.md R11, R15, R20).
-/

namespace Sys2Proof.Machine

/-! ## The forms of the program counter as a register -/

theorem State.readReg_15 (s : State) : s.readReg 15 = s.pc + 4 := rfl

theorem State.readReg_advance (s : State) (n : Nat) {r : Reg} (h : r ≠ 15) : (s.advance n).readReg r = s.readReg r :=
  State.readReg_congr (s := s) (t := s.advance n) rfl rfl rfl rfl rfl rfl h

/-- An instruction that writes a register other than the PC. -/
theorem registersOnly_writeReg (s : State) {rd : Reg} (v : Word) (h : rd ≠ 15) (n : Nat) :
    RegistersOnly s ((s.writeReg rd v).advance n) (BitVec.ofNat 32 n) [rd] := by
  obtain ⟨hpc, -, hs⟩ := s.writeReg_frame v h
  exact .advance n hpc (keepsRegisters_writeReg s v h) hs (s.writeReg_mem rd v)

/-- What MOV and ADD without flags end in when they give `v` to `rd` (R262, R306). -/
theorem moveHigh_eq (s : State) (rd : Reg) (v : Word) :
    ∃ t, (if rd = 15 then .next (s.branchTo v) else .next ((s.writeReg rd v).advance 2) : Result) = .next t ∧
      t.apsr = s.apsr ∧
      if rd = 15 then t.pc = v &&& 0xFFFFFFFE ∧ KeepsRegisters s t [] ∧ KeepsSystem s t ∧ KeepsMemory s t
      else t.readReg rd = (if rd = 13 then v &&& 0xFFFFFFFC else v) ∧ RegistersOnly s t 2 [rd] := by
  by_cases h : rd = 15
  · simp only [if_pos h]
    exact ⟨_, rfl, rfl, rfl, .of_eq [] rfl rfl rfl rfl rfl rfl, by constructor <;> rfl, .of_eq rfl⟩
  · simp only [if_neg h]
    refine ⟨_, rfl, (s.writeReg_frame v h).2.1, ?_, registersOnly_writeReg s v h 2⟩
    rw [State.readReg_advance _ 2 h]
    exact s.readReg_writeReg_self rd v h

/-- Settles O16: both forms give a value to a register that may be the PC. -/
theorem highRegisterMoves : Obligations.HighRegisterMoves := by
  intro s rd rm
  refine ⟨s.readReg_15, moveHigh_eq s rd (s.readReg rm), fun h => ?_⟩
  obtain ⟨t, ht, hf, hw⟩ := moveHigh_eq s rd (s.readReg rd + s.readReg rm)
  refine ⟨t, (if_neg h).trans ht, hf, ?_⟩
  by_cases hrd : rd = 15
  · subst hrd; exact hw
  · rw [if_neg hrd] at hw ⊢
    exact hw

/-! ## Addresses (R231, R265, R266, R273) -/

theorem immediate_four {n : Nat} (imm : BitVec n) :
    immediate imm 4 = BitVec.ofNat 32 (imm.toNat * 4) := by
  apply BitVec.eq_of_toNat_eq
  simp [immediate, BitVec.toNat_mul]

theorem State.pcAddress_eq (s : State) (imm8 : BitVec 8) :
    s.pcAddress imm8 = BitVec.ofNat 32 ((s.pc + 4).toNat / 4 * 4 + imm8.toNat * 4) := by
  rw [State.pcAddress, immediate_four, BitVec.ofNat_add]
  congr 1
  apply BitVec.eq_of_toNat_eq
  rw [alignWord_toNat, BitVec.toNat_ofNat, Nat.mod_eq_of_lt]
  · rfl
  · have := (s.pc + 4).isLt
    omega

/-- An adjustment of the stack pointer to a word-aligned address. -/
theorem setSp_advance_eq (s : State) {v : Word} (hv : alignWord v = v) :
    ((s.setSp v).advance 2).apsr = s.apsr ∧ ((s.setSp v).advance 2).sp = v ∧
      RegistersOnly s ((s.setSp v).advance 2) 2 [13] :=
  ⟨s.setSp_apsr v, (s.sp_setSp v).trans hv, registersOnly_writeReg s (rd := 13) v (by decide) 2⟩

/-- Settles O17: addresses by their arithmetic value, and stack pointers that stay word-aligned. -/
theorem addressArithmetic : Obligations.AddressArithmetic := by
  refine ⟨fun s rd imm8 => ?_, fun s rd imm8 => ?_, fun s imm7 => ?_, fun s imm7 => ?_⟩
  · rw [← s.pcAddress_eq]
    exact ⟨_, rfl, rfl, writesLow_advance s rd _⟩
  · rw [← immediate_four]
    exact ⟨_, rfl, rfl, writesLow_advance s rd _⟩
  · refine ⟨_, rfl, ?_⟩
    rw [immediate_four, Nat.mul_comm]
    exact setSp_advance_eq s (s.alignWord_sp_add _)
  · refine ⟨_, rfl, ?_⟩
    rw [immediate_four, Nat.mul_comm]
    exact setSp_advance_eq s (s.alignWord_sp_sub _)

/-! ## Branches (R330 to R335) -/

/-- An offset that counts halfwords (R330, R331, R333). -/
theorem signExtend_halfwords {n : Nat} (x : BitVec n) :
    (x ++ 0#1).signExtend 32 = BitVec.ofInt 32 (x.toInt * 2) := by
  have h : (x ++ 0#1).toInt = x.toInt * 2 := by
    rw [BitVec.toInt_append]
    by_cases hn : n = 0
    · subst hn; simp [BitVec.eq_nil x]
    · simp [hn, Int.mul_comm]
  rw [← h]
  rfl

theorem State.branchTarget_eq {n : Nat} (s : State) (offset : BitVec n) :
    s.branchTarget offset = s.pc + 4 + BitVec.ofInt 32 (offset.toInt * 2) := by
  rw [State.branchTarget, signExtend_halfwords]
  rfl

/-- A branch that keeps EPSR.T. -/
theorem branchTo_frame (s : State) (a : Word) :
    KeepsRegisters s (s.branchTo a) [] ∧ KeepsSystem s (s.branchTo a) ∧ KeepsMemory s (s.branchTo a) :=
  ⟨.of_eq [] rfl rfl rfl rfl rfl rfl, by constructor <;> rfl, .of_eq rfl⟩

/-- A branch that loads EPSR.T. -/
theorem interworkTo_eq (s : State) (a : Word) :
    (s.interworkTo a).pc.toNat = a.toNat / 2 * 2 ∧ (s.interworkTo a).thumb = decide (a.toNat % 2 = 1) ∧
      KeepsRegisters s (s.interworkTo a) [] ∧
      KeepsSystem { s with thumb := (s.interworkTo a).thumb } (s.interworkTo a) ∧ KeepsMemory s (s.interworkTo a) :=
  ⟨clearBit0_toNat a, getLsbD_zero_eq_decide a, .of_eq [] rfl rfl rfl rfl rfl rfl, by constructor <;> rfl,
    .of_eq rfl⟩

/-- B<cond> under whatever condition it tests: `p` says when it passes. -/
theorem execBCond_eq {s : State} {c : Cond} (imm8 : BitVec 8) {p : Prop} (hp : conditionPassed c s.apsr = true ↔ p) :
    ∃ t, exec (.bCond c imm8) s = .next t ∧ t.apsr = s.apsr ∧
      (p → t.pc = (s.pc + 4 + BitVec.ofInt 32 (imm8.toInt * 2)) &&& 0xFFFFFFFE) ∧ (¬p → t.pc = s.pc + 2) ∧
      KeepsRegisters s t [] ∧ KeepsSystem s t ∧ KeepsMemory s t := by
  rw [← s.branchTarget_eq imm8]
  change ∃ t, execBCond c imm8 s = .next t ∧ _
  unfold execBCond
  split
  · exact ⟨_, rfl, rfl, fun _ => rfl, fun h => absurd (hp.1 ‹_›) h, branchTo_frame s _⟩
  · exact ⟨_, rfl, rfl, fun h => absurd (hp.2 h) ‹_›, fun _ => rfl, .of_eq [] rfl rfl rfl rfl rfl rfl,
      by constructor <;> rfl, .of_eq rfl⟩

theorem keepsSystem_setLr (s : State) (v : Word) : KeepsSystem s { s with lr := v } := by
  constructor <;> rfl

/-- Settles O29: the three branches to `State.branchTarget`. -/
theorem directBranches : Obligations.DirectBranches := by
  refine ⟨fun s imm11 => ?_, fun s c imm8 => ?_, fun s off24 => ?_⟩
  · rw [← s.branchTarget_eq imm11]
    exact ⟨_, rfl, rfl, rfl, branchTo_frame s _⟩
  · exact execBCond_eq imm8 (by cases c <;> simp [conditionPassed])
  · rw [← s.branchTarget_eq off24]
    obtain ⟨hr, hs, hm⟩ := branchTo_frame { s with lr := (s.pc + 4) ||| 1 } (s.branchTarget off24)
    exact ⟨_, rfl, rfl, rfl, rfl, (keepsRegisters_setLr s _).trans hr rfl, (keepsSystem_setLr s _).trans hs, hm⟩

/-- The words that BX and POP take as EXC_RETURN values in Handler mode (R440). -/
theorem isExcReturn_iff (v : Word) : isExcReturn v = true ↔ v.toNat / 16 = 0xFFFFFFF := by
  have h : (v.extractLsb' 4 28).toNat = v.toNat / 16 := by
    have := v.isLt
    rw [BitVec.extractLsb'_toNat, Nat.shiftRight_eq_div_pow, Nat.mod_eq_of_lt (by omega)]
  simp [isExcReturn, BitVec.toNat_eq, h]

/-- `BXWritePC` but for an exception return (R11). -/
theorem bxWritePc_of_not_return {s : State} (f : State) {v : Word}
    (h : ¬(s.handlerMode = true ∧ v.toNat / 16 = 0xFFFFFFF)) : bxWritePc f s v = .next (s.interworkTo v) := by
  rw [← isExcReturn_iff] at h
  exact if_neg (by simpa using h)

/-- Settles O30: both are the branch that loads EPSR.T, BLX after it has linked. -/
theorem indirectBranches : Obligations.IndirectBranches := by
  intro s rm h13 h15
  have hrm : ¬(rm = 13 ∨ rm = 15) := not_or.2 ⟨h13, h15⟩
  refine ⟨fun h => ?_, ?_⟩
  · have hx : exec (.bx rm) s = .next (s.interworkTo (s.readReg rm)) :=
      (if_neg hrm).trans (bxWritePc_of_not_return s h)
    exact ⟨_, hx, rfl, interworkTo_eq s _⟩
  · have hx : exec (.blx rm) s = .next (({ s with lr := (s.pc + 2) ||| 1 }).interworkTo (s.readReg rm)) := if_neg hrm
    obtain ⟨hpc, ht, hr, hs, hm⟩ := interworkTo_eq { s with lr := (s.pc + 2) ||| 1 } (s.readReg rm)
    exact ⟨_, hx, rfl, rfl, hpc, ht, (keepsRegisters_setLr s _).trans hr rfl,
      (keepsSystem_setLr { s with thumb := _ } _).trans hs, hm⟩

end Sys2Proof.Machine
end

section
/-!
SUPPORT. Words in memory, and the load of a register list (20_memory.md R131, R132; 40_memory_access.md R249 to R252).
-/

namespace Sys2Proof.Machine

/-! ## Numbers in memory -/

theorem toNat_append_eq {m n : Nat} (x : BitVec m) (y : BitVec n) : (x ++ y).toNat = x.toNat * 2 ^ n + y.toNat := by
  rw [BitVec.toNat_append, ← Nat.shiftLeft_add_eq_or_of_lt y.isLt, Nat.shiftLeft_eq]

/-- The word at an address is the number of its four bytes (R131). -/
theorem State.readWord_toNat (s : State) (a : Word) : (s.mem.readWord a).toNat = s.number a 4 := by
  simp only [Memory.readWord, toNat_append_eq, State.number]
  omega

theorem State.number_congr {s t : State} {a : Word} {n : Nat}
    (h : ∀ i : Nat, i < n → t.mem.readByte (byteAddress a i) = s.mem.readByte (byteAddress a i)) :
    t.number a n = s.number a n := by
  induction n with
  | zero => rfl
  | succ n ih => simp only [State.number, ih fun i hi => h i (by omega), h n (by omega)]

/-! ## Accesses that memory answers -/

theorem State.ordinary_iff {s : State} {kind : AccessKind} {a : Word} {n : Nat} :
    s.ordinary kind a n = true ↔ aligned a n = true ∧ inPpb a = false ∧ targetOf s.memMap kind a n = .memory := by
  simp [State.ordinary, and_assoc]

theorem State.loadWord_of_ordinary {s : State} {a : Word} (h : s.ordinary .read a 4 = true) :
    s.loadWord a = .ok (s.mem.readWord a, s) := by
  obtain ⟨ha, hp, ht⟩ := State.ordinary_iff.1 h
  simp [State.loadWord, State.access, ha, hp, ht]

theorem State.ordinaryWords_iff {s : State} {kind : AccessKind} {a : Word} {n : Nat} :
    s.ordinaryWords kind a n = true ↔ ∀ i : Nat, i < n → s.ordinary kind (a + BitVec.ofNat 32 (4 * i)) 4 = true := by
  simp [State.ordinaryWords]

/-- The address of the word after `k` words and one more. -/
theorem add_word_succ (a : Word) (k : Nat) :
    a + BitVec.ofNat 32 (4 * (k + 1)) = a + 4 + BitVec.ofNat 32 (4 * k) := by
  rw [Nat.mul_succ, Nat.add_comm, BitVec.ofNat_add, ← BitVec.add_assoc]
  rfl

theorem State.ordinaryWords_succ {s : State} {kind : AccessKind} {a : Word} {n : Nat}
    (h : s.ordinaryWords kind a (n + 1) = true) :
    s.ordinary kind a 4 = true ∧ s.ordinaryWords kind (a + 4) n = true := by
  rw [State.ordinaryWords_iff] at h ⊢
  refine ⟨by simpa using h 0 (by omega), fun i hi => ?_⟩
  rw [← add_word_succ]
  exact h (i + 1) (by omega)

/-! ## Register lists (R249) -/

theorem mem_registersOf {list : BitVec 8} {r : LowReg} : r ∈ registersOf list ↔ list.getLsbD r.val = true := by
  have h : ∀ r : LowReg, r ∈ lowRegs := by decide
  simp [registersOf, h r]

theorem registersOf_sorted (list : BitVec 8) : (registersOf list).Pairwise (· < ·) :=
  List.Pairwise.filter _ (by decide)

theorem registersOf_ne_nil {list : BitVec 8} (h : list ≠ 0) : registersOf list ≠ [] := by
  intro e
  refine h (BitVec.eq_of_getLsbD_eq fun i hi => ?_)
  have hn : ¬list.getLsbD i = true := fun hb => by
    have := (mem_registersOf (r := ⟨i, hi⟩)).2 hb
    rw [e] at this
    cases this
  simpa using hn

theorem LowReg.toReg_injective : Function.Injective LowReg.toReg := by decide

/-- A low register that is not among the written ones. -/
theorem KeepsRegisters.readLow {s t : State} {rs : List LowReg} (h : KeepsRegisters s t (rs.map LowReg.toReg))
    {r : LowReg} (hr : r ∉ rs) : t.readLow r = s.readLow r := by
  have h15 : r.toReg ≠ 15 := by clear hr; revert r; decide
  simpa using h.register r.toReg h15 (fun hm => hr ((List.mem_map_of_injective LowReg.toReg_injective).1 hm))

/-- A list of registers in rising order gets the words from `a` on, and nothing else changes. -/
theorem State.loadRegisters_eq {rs : List LowReg} (hs : rs.Pairwise (· < ·)) {a : Word} {s : State}
    (h : s.ordinaryWords .read a rs.length = true) :
    ∃ regs, State.loadRegisters rs a s = .ok { s with regs := regs } ∧
      KeepsRegisters s { s with regs := regs } (rs.map LowReg.toReg) ∧
      ∀ r ∈ rs, (State.readLow { s with regs := regs } r).toNat =
        s.number (a + BitVec.ofNat 32 (4 * (rs.filter (fun q => decide (q.val < r.val))).length)) 4 := by
  induction rs generalizing a s with
  | nil => exact ⟨s.regs, rfl, .refl s _, fun r hr => by cases hr⟩
  | cons r0 rs ih =>
    obtain ⟨hlt, hs⟩ := List.pairwise_cons.1 hs
    obtain ⟨h0, h⟩ := State.ordinaryWords_succ h
    obtain ⟨regs, hl, hk, hv⟩ := ih hs (s := s.writeLow r0 (s.mem.readWord a)) h
    refine ⟨regs, ?_, (keepsRegisters_writeLow s r0 _).trans hk rfl, fun r hr => ?_⟩
    · simp only [State.loadRegisters, State.loadWord_of_ordinary h0, Access.bind]
      exact hl
    · rcases List.mem_cons.1 hr with rfl | hr
      · have hn : r ∉ rs := fun hm => lt_irrefl r (hlt r hm)
        have e0 : rs.filter (fun q => decide (q.val < r.val)) = [] :=
          List.filter_eq_nil_iff.2 fun q hq => by simpa using Nat.le_of_lt (hlt q hq)
        rw [List.filter_cons_of_neg (by simp), e0]
        have e := (hk.readLow hn).trans (s.readLow_writeLow_self r _)
        rw [List.length_nil, Nat.mul_zero, BitVec.add_zero, ← State.readWord_toNat]
        exact congrArg BitVec.toNat e
      · have hr0 : r0.val < r.val := hlt r hr
        rw [List.filter_cons_of_pos (by simpa using hr0), List.length_cons, add_word_succ]
        exact (hv r hr).trans (State.number_congr fun _ _ => rfl)

/-! ## POP (R252) -/

/-- The registers that a load of `rs` writes and a stack pointer that moves past them. -/
theorem keepsRegisters_load_setSp {s : State} {regs : Vector Word 13} {rs : List Reg} (v : Word)
    (h : KeepsRegisters s { s with regs := regs } rs) :
    KeepsRegisters s (State.setSp { s with regs := regs } v) (13 :: rs) :=
  (h.trans (keepsRegisters_setSp { s with regs := regs } v) rfl).congr fun r hr => by
    simpa [or_comm] using hr

theorem KeepsSystem.withThumb {s t : State} (h : KeepsSystem s t) (b : Bool) :
    KeepsSystem { s with thumb := b } { t with thumb := b } :=
  ⟨h.ipsr, rfl, h.primask, h.spsel, h.nvic, h.scb, h.systick, h.event, h.sleep, h.lockup, h.memMap, h.inputs⟩

/-- POP without PC goes on after it has loaded its registers and moved the stack pointer past them. -/
theorem execPop_false_eq {s : State} {list : BitVec 8} {regs : Vector Word 13} (h : list ≠ 0)
    (hl : State.loadRegisters (registersOf list) s.sp s = .ok { s with regs := regs }) :
    execPop false list s = .next ((State.setSp { s with regs := regs }
      (s.sp + BitVec.ofNat 32 (4 * (registersOf list).length))).advance 2) := by
  have he : (registersOf list).isEmpty = false := by simpa using registersOf_ne_nil h
  simp [execPop, he, hl, concludeTransfer, wordsSize]

/-- POP with PC branches to the word above its registers, unless that is an EXC_RETURN value in Handler mode. -/
theorem execPop_true_eq {s : State} {list : BitVec 8} {regs : Vector Word 13}
    (hl : State.loadRegisters (registersOf list) s.sp s = .ok { s with regs := regs })
    (ho : s.ordinary .read (s.sp + BitVec.ofNat 32 (4 * (registersOf list).length)) 4 = true)
    (hr : ¬(s.handlerMode = true ∧
      s.number (s.sp + BitVec.ofNat 32 (4 * (registersOf list).length)) 4 / 16 = 0xFFFFFFF)) :
    execPop true list s = .next ((State.setSp { s with regs := regs }
      (s.sp + BitVec.ofNat 32 (4 * ((registersOf list).length + 1)))).interworkTo
        (s.mem.readWord (s.sp + BitVec.ofNat 32 (4 * (registersOf list).length)))) := by
  rw [← State.readWord_toNat] at hr
  have hw : State.loadWord { s with regs := regs } (s.sp + BitVec.ofNat 32 (4 * (registersOf list).length)) = .ok
      (s.mem.readWord (s.sp + BitVec.ofNat 32 (4 * (registersOf list).length)), { s with regs := regs }) :=
    State.loadWord_of_ordinary ho
  have hsp : s.sp + BitVec.ofNat 32 (4 * ((registersOf list).length + 1)) =
      s.sp + BitVec.ofNat 32 (4 * (registersOf list).length) + 4 := by
    rw [add_word_succ, BitVec.add_assoc, BitVec.add_comm 4, BitVec.add_assoc]
  simp only [execPop, if_true, hl, concludeTransfer, wordsSize, hw, hsp]
  refine bxWritePc_of_not_return _ ?_
  rwa [State.handlerMode, State.setSp_ipsr]

/-- Settles O28: the registers by `State.loadRegisters_eq`, then one of the two ways to go on. -/
theorem popLoads : Obligations.PopLoads := by
  intro s pc list hwf
  dsimp only
  intro ho hret
  have hi := State.ordinaryWords_iff.1 ho
  have hregs : s.ordinaryWords .read s.sp (registersOf list).length = true :=
    State.ordinaryWords_iff.2 fun i h => hi i (by omega)
  obtain ⟨regs, hl, hk, hv⟩ := State.loadRegisters_eq (registersOf_sorted list) hregs
  have loaded (v : Word) (r : LowReg) (hr : list.getLsbD r.val = true) :
      ((State.setSp { s with regs := regs } v).readLow r).toNat = s.number (s.sp + BitVec.ofNat 32
        (4 * ((registersOf list).filter (fun q => decide (q.val < r.val))).length)) 4 := by
    simpa [State.readLow] using hv r (mem_registersOf.2 hr)
  have system (v : Word) : KeepsSystem s (State.setSp { s with regs := regs } v) :=
    KeepsSystem.trans (t := { s with regs := regs }) (by constructor <;> rfl) (keepsSystem_setSp _ v)
  cases pc with
  | false =>
    have hlist : list ≠ 0 := by simpa [Instr.wellFormed] using hwf
    have frame (v : Word) : RegistersOnly s ((State.setSp { s with regs := regs } v).advance 2) 2 _ :=
      .advance 2 (State.setSp_pc _ _) (keepsRegisters_load_setSp v hk) (system v) (State.setSp_mem _ _)
    exact ⟨_, execPop_false_eq hlist hl, State.setSp_apsr _ _, (State.sp_setSp _ _).trans (s.alignWord_sp_add _),
      loaded _, (frame _).registers, (frame _).memory, (frame _).pc, (frame _).system⟩
  | true =>
    obtain ⟨hpc, ht, hr, hs, -⟩ :=
      interworkTo_eq (State.setSp { s with regs := regs }
        (s.sp + BitVec.ofNat 32 (4 * ((registersOf list).length + 1))))
        (s.mem.readWord (s.sp + BitVec.ofNat 32 (4 * (registersOf list).length)))
    have hk' := (keepsRegisters_load_setSp _ hk).trans hr (system _).onProcessStack
    rw [List.append_nil] at hk'
    rw [State.readWord_toNat] at hpc ht
    exact ⟨_, execPop_true_eq hl (hi _ (by simp [bitValue])) (fun h => hret rfl h.1 h.2), State.setSp_apsr _ _,
      (State.sp_setSp _ _).trans (s.alignWord_sp_add _), loaded _, hk', .of_eq (State.setSp_mem _ _), hpc, ht,
      ((system _).withThumb _).trans hs⟩

end Sys2Proof.Machine
end

section
/-!
SUPPORT. Stores of words and exception entry (60_exceptions.md R428 to R434).
-/

namespace Sys2Proof.Machine

/-! ## Words that are stored -/

theorem byteAddress_add_four (a : Word) (i : Nat) : byteAddress (a + 4) i = byteAddress a (i + 4) := by
  have h : a + 4 + BitVec.ofNat 32 i = a + BitVec.ofNat 32 (i + 4) := by
    rw [Nat.add_comm, BitVec.ofNat_add, ← BitVec.add_assoc]
    rfl
  simp only [byteAddress, h]

theorem byteAddress_inj {a : Word} {i j : Nat} (hi : i < 2 ^ 32) (hj : j < 2 ^ 32)
    (h : byteAddress a i = byteAddress a j) : i = j := by
  have := a.isLt
  simp only [byteAddress, BitVec.toNat_add, BitVec.toNat_ofNat] at h
  omega

theorem byteAddress_eq {a : Word} {i : Nat} (h : a.toNat + i < 2 ^ 32) : byteAddress a i = a.toNat + i := by
  simp only [byteAddress, BitVec.toNat_add, BitVec.toNat_ofNat]
  omega

theorem State.number_storeTo {s : State} (h : s.mem.wf = true) (a v : Word) :
    (s.storeTo (s.mem.writeWord a v) a 4).number a 4 = v.toNat := by
  have byte (i j : Nat) (hi : i < 4) (hj : j < 4) : byteAddress a i = byteAddress a j ↔ i = j :=
    ⟨byteAddress_inj (by omega) (by omega), fun e => by rw [e]⟩
  have := v.isLt
  simp [State.number, Memory.readByte_writeWord h, byte, Nat.shiftRight_eq_div_pow]
  omega

/-- Which accesses memory answers depends on the memory map only. -/
theorem State.ordinary_of_memMap_eq {s t : State} {kind : AccessKind} {a : Word} {n : Nat} (h : t.memMap = s.memMap)
    (ho : s.ordinary kind a n = true) : t.ordinary kind a n = true := by
  unfold State.ordinary at *
  rwa [h]

theorem State.ordinaryWords_of_memMap_eq {s t : State} {kind : AccessKind} {a : Word} {n : Nat}
    (h : t.memMap = s.memMap) (ho : s.ordinaryWords kind a n = true) : t.ordinaryWords kind a n = true :=
  State.ordinaryWords_iff.2 fun i hi => State.ordinary_of_memMap_eq h (State.ordinaryWords_iff.1 ho i hi)

theorem State.storeWord_of_ordinary {s : State} {a : Word} (v : Word) (h : s.ordinary .write a 4 = true) :
    s.storeWord a v = .ok (s.storeTo (s.mem.writeWord a v) a 4) := by
  obtain ⟨ha, hp, ht⟩ := State.ordinary_iff.1 h
  simp [State.storeWord, State.access, ha, hp, ht]

/-- Words stored to memory lie at rising addresses from `a` on, and nothing else changes. -/
theorem State.storeWords_eq {ws : List Word} {a : Word} {s : State} (hm : s.mem.wf = true)
    (h : s.ordinaryWords .write a ws.length = true) (hn : 4 * ws.length ≤ 2 ^ 32) :
    ∃ m st, State.storeWords ws a s = .ok { s with mem := m, stored := st } ∧ m.wf = true ∧
      KeepsMemoryOutside s { s with mem := m, stored := st } a (4 * ws.length) ∧
      ∀ (k : Nat) (hk : k < ws.length),
        State.number { s with mem := m, stored := st } (a + BitVec.ofNat 32 (4 * k)) 4 = ws[k].toNat := by
  induction ws generalizing a s with
  | nil => exact ⟨s.mem, s.stored, rfl, hm, fun _ _ => rfl, fun k hk => by cases hk⟩
  | cons w ws ih =>
    obtain ⟨h0, h⟩ := State.ordinaryWords_succ h
    rw [List.length_cons] at hn
    obtain ⟨m, st, hs, hw, ho, hv⟩ := ih (s := s.storeTo (s.mem.writeWord a w) a 4) (a := a + 4)
      (Memory.wf_writeWord a w hm) h (by omega)
    refine ⟨m, st, ?_, hw, fun k hk => ?_, fun k hk => ?_⟩
    · simp only [State.storeWords, State.storeWord_of_ordinary w h0, Access.bind]
      exact hs
    · rw [List.length_cons] at hk
      refine (ho k fun i hi => ?_).trans ?_
      · rw [byteAddress_add_four]
        exact hk (i + 4) (by omega)
      · rw [State.storeTo_mem, Memory.readByte_writeWord hm]
        simp [hk 0 (by omega), hk 1 (by omega), hk 2 (by omega), hk 3 (by omega)]
    · cases k with
      | zero =>
        rw [Nat.mul_zero, BitVec.add_zero]
        refine (State.number_congr (s := s.storeTo (s.mem.writeWord a w) a 4) fun i hi => ?_).trans
          (State.number_storeTo hm a w)
        refine ho _ fun j hj e => ?_
        rw [byteAddress_add_four] at e
        have := byteAddress_inj (by omega) (by omega) e
        omega
      | succ k =>
        rw [add_word_succ]
        exact (State.number_congr fun _ _ => rfl).trans (hv k (by simpa using hk))

/-- Stacking is a store of words of which none is lost (R437). -/
theorem State.stackWords_of_storeWords {ws : List Word} {a : Word} {s t : State} (h : State.storeWords ws a s = .ok t) :
    State.stackWords ws a s = .ok (t, false) := by
  induction ws generalizing a s with
  | nil => injection h with h; subst h; rfl
  | cons w ws ih =>
    obtain ⟨u, hu, h⟩ := Access.bind_eq_ok h
    simp only [State.stackWords, hu]
    exact ih h

/-! ## Pending and active bits -/

theorem getLsbD_setBit (v : BitVec 48) {e : Nat} (he : e < 48) (b : Bool) (k : Nat) :
    (setBit v e b).getLsbD k = if k = e then b else v.getLsbD k := by
  unfold setBit
  by_cases hk : k < 48
  · by_cases hke : k = e
    · subst hke
      cases b <;> simp [hk]
    · cases b <;> simp [hk, hke]
  · have hke : k ≠ e := by omega
    simp only [if_neg hke]
    rw [BitVec.getLsbD_of_ge _ k (by omega), BitVec.getLsbD_of_ge _ k (by omega)]

/-! ## Exception entry -/

/-- The stacked xPSR as a number (R430, R431). -/
theorem State.stackedPsr_toNat (s : State) : s.stackedPsr.toNat =
    2 ^ 31 * bitValue s.apsr.n + 2 ^ 30 * bitValue s.apsr.z + 2 ^ 29 * bitValue s.apsr.c
      + 2 ^ 28 * bitValue s.apsr.v + 2 ^ 24 * bitValue s.thumb + 2 ^ 9 * bitValue (s.sp.getLsbD 2) + s.ipsr.toNat := by
  simp only [State.stackedPsr, toNat_append_eq, bitValue_eq_toNat, BitVec.toNat_ofBool, BitVec.toNat_ofNat]
  omega

/-- An entry whose frame is stacked without loss and whose vector can be read. -/
theorem exceptionEntry_of_stacked {f s m t : State} {e : Nat} {ret : Word}
    (hs : State.stackWords (s.frameWords ret) s.framePointer (s.setSp s.framePointer) = .ok (m, false))
    (hv : m.vectorTo e s.excReturn = .ok t) : exceptionEntry f e ret s = .next t := by
  simp [exceptionEntry, hs, hv]

theorem vectorAddress_toNat {e : Nat} (he : e < 48) : (vectorAddress e).toNat = 4 * e := by
  rw [vectorAddress, BitVec.toNat_ofNat]
  omega

theorem State.canEnter_iff {s : State} {e : Nat} : s.canEnter e = true ↔
    s.ordinaryWords .write s.framePointer 8 = true ∧ 0xC0 ≤ s.framePointer.toNat ∧
      s.framePointer.toNat + 32 ≤ 2 ^ 32 ∧ s.ordinary .read (vectorAddress e) 4 = true := by
  simp [State.canEnter, and_assoc]

theorem State.alignWord_framePointer {s : State} (h : s.ordinaryWords .write s.framePointer 8 = true) :
    alignWord s.framePointer = s.framePointer := by
  have ha := (State.ordinary_iff.1 (State.ordinaryWords_succ h).1).1
  rw [alignWord_eq_self_iff]
  simpa [aligned] using ha

/-- Stacking for an exception that can be entered: the frame lies in memory, the vector is untouched, and but for the
stack pointer nothing else changes (R430, R433). -/
theorem State.stackWords_frame {s : State} {e : Nat} (ret : Word) (he : e < 48) (hm : s.mem.wf = true)
    (h : s.canEnter e = true) :
    ∃ p, State.stackWords (s.frameWords ret) s.framePointer (s.setSp s.framePointer) = .ok (p, false) ∧
      p = { s.setSp s.framePointer with mem := p.mem, stored := p.stored } ∧
      (∀ k (hk : k < 8), p.number (s.framePointer + BitVec.ofNat 32 (4 * k)) 4 = ((s.frameWords ret)[k]'hk).toNat) ∧
      KeepsMemoryOutside s p s.framePointer 32 ∧
      p.loadWord (vectorAddress e) = .ok (p.mem.readWord (vectorAddress e), p) ∧
      (p.mem.readWord (vectorAddress e)).toNat = s.number (vectorAddress e) 4 := by
  obtain ⟨hw, hlo, hhi, hvec⟩ := State.canEnter_iff.1 h
  have hmap : (s.setSp s.framePointer).memMap = s.memMap := s.setSp_memMap _
  obtain ⟨m, st, hs, -, ho, hv⟩ := State.storeWords_eq (s := s.setSp s.framePointer) (ws := s.frameWords ret)
    (by rwa [s.setSp_mem]) (State.ordinaryWords_of_memMap_eq hmap hw) (Nat.le_of_ble_eq_true rfl)
  have hkept : KeepsMemoryOutside s { s.setSp s.framePointer with mem := m, stored := st } s.framePointer 32 :=
    fun k hk => (ho k hk).trans (by rw [s.setSp_mem])
  refine ⟨_, State.stackWords_of_storeWords hs, rfl, hv, hkept,
    State.loadWord_of_ordinary (State.ordinary_of_memMap_eq hmap hvec), ?_⟩
  rw [State.readWord_toNat]
  refine State.number_congr fun i hi => hkept _ fun j hj => ?_
  have ha := vectorAddress_toNat he
  rw [byteAddress_eq (by omega), byteAddress_eq (by omega)]
  omega

/-- An exception whose frame and vector are in memory is entered (R430). -/
theorem exceptionEntry_entered {s : State} {e : Nat} (f : State) (ret : Word) (he : e < 48) (hm : s.mem.wf = true)
    (h : s.canEnter e = true) : ∃ t, exceptionEntry f e ret s = .next t ∧ Entered s t e ret := by
  obtain ⟨p, hs, hp, hv, hkept, hld, hvec⟩ := State.stackWords_frame ret he hm h
  have hfp := State.alignWord_framePointer (State.canEnter_iff.1 h).1
  generalize hm' : p.mem = m, hst : p.stored = st at hp
  subst hp
  refine ⟨_, exceptionEntry_of_stacked hs (by rw [State.vectorTo, hld]), ?_⟩
  constructor
  case mainSp =>
    cases ho : s.onProcessStack <;> simp [State.mainSp, ho, hfp]
  case processSp =>
    cases ho : s.onProcessStack <;> simp [State.processSp, ho, hfp]
  case r0 =>
    have h0 := hv 0 (by decide)
    rw [Nat.mul_zero, BitVec.add_zero] at h0
    exact h0
  case r1 => exact hv 1 (by decide)
  case r2 => exact hv 2 (by decide)
  case r3 => exact hv 3 (by decide)
  case r12 => exact hv 4 (by decide)
  case stackedLr => exact hv 5 (by decide)
  case returnAddress => exact hv 6 (by decide)
  case xpsr => exact (hv 7 (by decide)).trans s.stackedPsr_toNat
  case lr => rfl
  case ipsr => exact Nat.mod_eq_of_lt (by omega)
  case spsel => rfl
  case active =>
    intro k
    refine (getLsbD_setBit _ he true k).trans ?_
    by_cases hk : k = e <;> simp [State.isActive, hk]
  case pending =>
    intro k
    refine (getLsbD_setBit _ he false k).trans ?_
    by_cases hk : k = e <;> simp [State.isPending, hk]
  case awake => rfl
  case pc => rw [← hvec]; exact clearBit0_toNat _
  case thumb => rw [← hvec]; exact getLsbD_zero_eq_decide _
  case registers => intro r; simp
  case memory => exact hkept
  all_goals simp

/-- Making the exception pending first changes nothing of its entry. -/
theorem Entered.of_setPending {s t : State} {e : Nat} {ret : Word} (he : e < 48)
    (h : Entered (s.setPending e true) t e ret) : Entered s t e ret :=
  { h with
    pending := fun k => by
      rw [h.pending k]
      by_cases hk : k = e
      · simp [hk]
      · have : (s.setPending e true).isPending k = s.isPending k := by
          refine (getLsbD_setBit _ he true k).trans (if_neg hk)
        rw [this] }

/-- A HardFault raised below priority -1, with its frame and vector in memory, is entered (R428). -/
theorem raiseHardFault_entered {f s : State} (c : FaultCause) (hm : s.mem.wf = true) (hp : -1 < s.executionPriority)
    (h : s.canEnter 3 = true) : ∃ t, raiseHardFault c f s = .next t ∧ Entered s t 3 f.pc := by
  obtain ⟨t, ht, hent⟩ := exceptionEntry_entered (s := s.setPending 3 true) f f.pc (by decide) hm h
  exact ⟨t, (if_neg (by omega)).trans ht, hent.of_setPending (by decide)⟩

end Sys2Proof.Machine
end

section
/-!
SUPPORT. From the bytes at the program counter to a step (00_scope.md R24; 20_memory.md R145; 30_encoding.md R181).
-/

namespace Sys2Proof.Machine

/-! ## Known words -/

/-- Settles O1: the decoder evaluates on each word. -/
theorem decodeKnownWords : Obligations.DecodeKnownWords :=
  ⟨rfl, rfl, rfl, rfl, rfl, rfl, rfl, rfl, rfl⟩

/-! ## The length of what decodes (R181) -/

theorem defined_eq_ok {i j : Instr} (h : defined i = .ok j) : i = j := by
  unfold defined at h
  split at h
  · injection h
  · cases h

theorem encode_length_pos (i : Instr) : 0 < (encode i).length := by
  cases i <;> exact Nat.succ_pos _

/-- Every row of the 32-bit opcode table reads instructions of 4 bytes. -/
theorem length_of_table32 {r : Row32} (hr : r ∈ table32) {hw1 hw2 : Halfword} {i : Instr}
    (h : r.read hw1 hw2 = .ok i) : i.length = 4 := by
  have hd {j : Instr} (hj : j.length = 4) (h : defined j = .ok i) : i.length = 4 := defined_eq_ok h ▸ hj
  simp only [table32, List.mem_cons, List.not_mem_nil, or_false] at hr
  rcases hr with rfl | rfl | rfl | rfl | rfl | rfl | rfl <;> dsimp only at h
  case inr.inl | inr.inr.inl =>
    split at h
    · exact hd rfl h
    · cases h
  all_goals exact hd rfl h

theorem decode32_length {hw1 hw2 : Halfword} {i : Instr} (h : decode32 hw1 hw2 = .ok i) : i.length = 4 := by
  unfold decode32 at h
  split at h
  · rename_i r hf
    unfold Row32.decode at h
    split at h
    · exact length_of_table32 (List.mem_of_find?_eq_some hf) h
    · cases h
  · cases h

/-- What decodes from a first halfword of a 32-bit instruction has 4 bytes. -/
theorem length_of_decode_wide {b0 b1 : Byte} {bs rest : List Byte} {i : Instr} (hw : isWide (halfwordOf b0 b1) = true)
    (h : decode (b0 :: b1 :: bs) = .ok (i, rest)) : i.length = 4 := by
  simp only [decode, if_pos hw] at h
  split at h
  · rename_i b2 b3 rest'
    cases hd : decode32 (halfwordOf b0 b1) (halfwordOf b2 b3) with
    | error e => rw [hd] at h; cases h
    | ok j =>
      rw [hd] at h
      injection h with h
      injection h with h
      exact h ▸ decode32_length hd
  · cases h

/-! ## The fetch (R145) -/

theorem State.fetchCheck_of_fetchable {s : State} {a : Word} (h : s.fetchable a) : s.fetchCheck a = .ok () := by
  simp [State.fetchCheck, h.1, h.2]

theorem State.fetchCheck_of_fetchFaults {s : State} {a : Word} (h : s.fetchFaults a) :
    ∃ c, s.fetchCheck a = .hardFault c := by
  unfold State.fetchCheck
  split
  · exact ⟨_, rfl⟩
  · have ht := h.resolve_left ‹_›
    rw [ht]
    exact ⟨_, rfl⟩

/-- A fetch whose halfwords can all be fetched gives what its bytes decode to. -/
theorem State.fetchInstr_of_fetchable {s : State} (ht : s.thumb = true) (h1 : s.fetchable s.pc)
    (h2 : isWide (s.mem.readHalfword s.pc) = true → s.fetchable (s.pc + 2)) :
    s.fetchInstr = ofDecoding (decode s.codeBytes) := by
  have hsecond : (if isWide (s.mem.readHalfword s.pc) then s.fetchCheck (s.pc + 2) else .ok ()) = .ok () := by
    split
    · exact State.fetchCheck_of_fetchable (h2 ‹_›)
    · rfl
  simp only [State.fetchInstr, ht, State.fetchCheck_of_fetchable h1, hsecond, Access.bind, Bool.not_true,
    Bool.false_eq_true, if_false]

/-- An instruction that faults before it executes gives a HardFault of the fetch. -/
theorem State.fetchInstr_of_instrFaults {s : State} (h : s.instrFaults) : ∃ c, s.fetchInstr = .hardFault c := by
  rcases h with ht | ⟨ht, h1⟩ | ⟨ht, h1, hw, h2⟩ | ⟨ht, h1, h2, hd⟩
  · exact ⟨.notThumb, by simp [State.fetchInstr, ht]⟩
  · obtain ⟨c, hc⟩ := State.fetchCheck_of_fetchFaults h1
    exact ⟨c, by simp [State.fetchInstr, ht, hc, Access.bind]⟩
  · obtain ⟨c, hc⟩ := State.fetchCheck_of_fetchFaults h2
    exact ⟨c, by simp only [State.fetchInstr, ht, State.fetchCheck_of_fetchable h1, hw, hc, Access.bind,
      Bool.not_true, Bool.false_eq_true, if_false, if_true]⟩
  · exact ⟨.undefined, by rw [State.fetchInstr_of_fetchable ht h1 h2, hd]; rfl⟩

/-- The fetch of an instruction whose halfwords, as many as it has, can be fetched. -/
theorem State.fetchInstr_of_decode {s : State} {i : Instr} {rest : List Byte} (ht : s.thumb = true)
    (hd : decode s.codeBytes = .ok (i, rest))
    (hf : ∀ k : Nat, k < i.length / 2 → s.fetchable (s.pc + BitVec.ofNat 32 (2 * k))) : s.fetchInstr = .ok i := by
  have hlen : i.length / 2 = (encode i).length := Nat.mul_div_cancel_left _ (by decide)
  have h1 : s.fetchable s.pc := by simpa using hf 0 (by rw [hlen]; exact encode_length_pos i)
  have h2 (hw : isWide (s.mem.readHalfword s.pc) = true) : s.fetchable (s.pc + 2) :=
    hf 1 (by rw [length_of_decode_wide hw hd]; decide)
  rw [State.fetchInstr_of_fetchable ht h1 h2, hd]
  rfl

/-! ## A step that runs an instruction (R24) -/

theorem State.wakeUp_lockup (s : State) (b : Bool) : (s.wakeUp b).lockup = s.lockup := by
  unfold State.wakeUp
  split
  · rfl
  · split <;> rfl
  · split
    · rfl
    · split <;> rfl

/-- A core that takes no exception runs an instruction. -/
theorem State.coreStep_eq_runInstr {s : State} {b : Bool} (h : b = false ∨ s.nextException = none) :
    s.coreStep b = s.runInstr := by
  have hn : (if b then s.nextException else none) = none := by
    rcases h with rfl | h
    · rfl
    · rw [h, ite_self]
  rw [State.coreStep, hn]

/-- A step of an awake machine that is asked for nothing else runs an instruction in the state the agents leave. -/
theorem step_eq_runInstr {s : State} (hr : s.noReset) (hl : s.ready.lockup = false) (hs : s.ready.sleep = .awake)
    (hn : s.takeInput.1.takeException = false ∨ s.ready.nextException = none) : step s = s.ready.runInstr := by
  obtain ⟨habsent, hrequest⟩ := hr
  have hlock : ((s.takeInput.2).runAgents s.takeInput.1).lockup = false := (State.wakeUp_lockup _ _).symm.trans hl
  have hcycle : step s = s.takeInput.2.proceed s.takeInput.1 := by
    simp [step, State.cycle, hrequest, habsent]
  have hproceed : s.takeInput.2.proceed s.takeInput.1 = s.ready.coreStep s.takeInput.1.takeException := by
    unfold State.ready at hs ⊢
    simp [State.proceed, hlock, hs]
  rw [hcycle, hproceed, State.coreStep_eq_runInstr hn]

/-- Settles O5: a step is the fetch and what follows from its answer. -/
theorem stepRunsDecoded : Obligations.StepRunsDecoded := by
  intro s
  dsimp only
  intro hr hl hs hn
  rw [step_eq_runInstr hr hl hs hn]
  unfold State.runInstr
  refine ⟨fun i rest ht hd hf => ?_, fun hfault hm hp hc => ?_⟩
  · rw [State.fetchInstr_of_decode ht hd hf]
    rfl
  · obtain ⟨c, hcause⟩ := State.fetchInstr_of_instrFaults hfault
    rw [hcause]
    exact raiseHardFault_entered c hm hp hc

end Sys2Proof.Machine
end

section
/-!
SUPPORT. The invariant of the machine as named facts, and the updates of the state that keep it (10_state.md R35, R37,
R46, R60, R72, R73, R90).
-/

namespace Sys2Proof.Machine

/-! ## Words that have bits of a mask only -/

theorem and_not_eq_zero_iff {n : Nat} {v m : BitVec n} :
    v &&& ~~~m = 0 ↔ ∀ k < n, v.getLsbD k = true → m.getLsbD k = true := by
  constructor
  · intro h k hk hv
    have hbit := congrArg (·.getLsbD k) h
    simpa [hk, hv] using hbit
  · intro h
    apply BitVec.eq_of_getLsbD_eq
    intro k hk
    simpa [hk] using h k hk

theorem and_mask_and_not {n : Nat} (w m : BitVec n) : w &&& m &&& ~~~m = 0 := by
  rw [BitVec.and_assoc, BitVec.and_not_self]
  exact BitVec.and_zero

/-! ## The invariant as named facts -/

/-- `State.inv`, each part of it under a name. -/
structure State.Inv (s : State) : Prop where
  mem : s.mem.wf = true
  pc : s.pc.getLsbD 0 = false
  msp : alignWord s.msp = s.msp
  psp : alignWord s.psp = s.psp
  spsel : s.handlerMode = true → s.spsel = false
  pending : s.nvic.pending &&& ~~~exceptionMask = 0
  active : s.nvic.active &&& ~~~exceptionMask = 0
  ipr : ∀ (n : Nat) (h : n < 8), s.nvic.ipr[n] &&& ~~~iprMask = 0
  shpr2 : s.scb.shpr2 &&& ~~~shpr2Mask = 0
  shpr3 : s.scb.shpr3 &&& ~~~shpr3Mask = 0

theorem State.inv_iff {s : State} : s.inv = true ↔ s.Inv := by
  have himp : (!s.handlerMode || !s.spsel) = true ↔ (s.handlerMode = true → s.spsel = false) := by
    cases s.handlerMode <;> simp
  unfold State.inv
  simp only [Bool.and_eq_true, himp, beq_iff_eq, Bool.not_eq_true', Vector.all_eq_true]
  constructor
  · rintro ⟨⟨⟨⟨⟨⟨⟨⟨⟨mem, pc⟩, msp⟩, psp⟩, spsel⟩, pending⟩, active⟩, ipr⟩, shpr2⟩, shpr3⟩
    exact ⟨mem, pc, msp, psp, spsel, pending, active, ipr, shpr2, shpr3⟩
  · rintro ⟨mem, pc, msp, psp, spsel, pending, active, ipr, shpr2, shpr3⟩
    exact ⟨⟨⟨⟨⟨⟨⟨⟨⟨mem, pc⟩, msp⟩, psp⟩, spsel⟩, pending⟩, active⟩, ipr⟩, shpr2⟩, shpr3⟩

/-! ## Pending and active bits -/

/-- Only an exception number can be pending under the invariant (R90). -/
theorem State.Inv.mask_of_isPending {s : State} (h : s.Inv) {e : Nat} (hp : s.isPending e = true) :
    exceptionMask.getLsbD e = true :=
  and_not_eq_zero_iff.1 h.pending e (BitVec.lt_of_getLsbD hp) hp

theorem setBit_true_within {v m : BitVec 48} (h : v &&& ~~~m = 0) {e : Nat} (he : m.getLsbD e = true) :
    setBit v e true &&& ~~~m = 0 := by
  rw [and_not_eq_zero_iff] at h ⊢
  intro k hk hv
  rw [getLsbD_setBit v (BitVec.lt_of_getLsbD he)] at hv
  split at hv
  · subst_vars
    exact he
  · exact h k hk hv

theorem setBit_false_within {v m : BitVec 48} (h : v &&& ~~~m = 0) (e : Nat) : setBit v e false &&& ~~~m = 0 := by
  rw [and_not_eq_zero_iff] at h ⊢
  intro k hk hv
  refine h k hk ?_
  simp only [setBit, Bool.false_eq_true, if_false, BitVec.getLsbD_and, Bool.and_eq_true] at hv
  exact hv.1

theorem setBit_within {v m : BitVec 48} (h : v &&& ~~~m = 0) {e : Nat} (he : m.getLsbD e = true) (b : Bool) :
    setBit v e b &&& ~~~m = 0 := by
  cases b
  · exact setBit_false_within h e
  · exact setBit_true_within h he

/-- The bits of interrupts are exception numbers, all 32 of them (R90). -/
theorem irqBits_within {v : BitVec 48} (h : v &&& ~~~exceptionMask = 0) (p : BitVec 32) :
    (p ++ v.extractLsb' 0 16 : BitVec 48) &&& ~~~exceptionMask = 0 := by
  rw [and_not_eq_zero_iff] at h ⊢
  intro k hk hv
  rw [BitVec.getLsbD_append] at hv
  by_cases hlow : k < 16
  · rw [if_pos hlow] at hv
    simp only [BitVec.getLsbD_extractLsb', Nat.zero_add, Bool.and_eq_true] at hv
    exact h k hk hv.2
  · have irqs : ∀ j < 32, exceptionMask.getLsbD (16 + j) = true := by decide
    simpa [show 16 + (k - 16) = k by omega] using irqs (k - 16) (by omega)

/-! ## Updates that keep the invariant -/

theorem State.Inv.withPending {s : State} (h : s.Inv) {p : BitVec 48} (hp : p &&& ~~~exceptionMask = 0) :
    (s.withPending p).Inv := { h with pending := hp }

theorem State.Inv.withIrqPending {s : State} (h : s.Inv) (p : BitVec 32) : (s.withIrqPending p).Inv :=
  h.withPending (irqBits_within h.pending p)

theorem State.Inv.setPending {s : State} (h : s.Inv) {e : Nat} (he : exceptionMask.getLsbD e = true) (b : Bool) :
    (s.setPending e b).Inv := h.withPending (setBit_within h.pending he b)

theorem State.Inv.endException {s : State} (h : s.Inv) : s.endException.Inv :=
  { h with active := setBit_false_within h.active _ }

theorem State.Inv.lockedUp {s : State} (h : s.Inv) (m : State) : (s.lockedUp m).Inv := { h with }

theorem State.Inv.branchTo {s : State} (h : s.Inv) (a : Word) : (s.branchTo a).Inv :=
  { h with pc := clearBit0_getLsbD a }

theorem State.Inv.interworkTo {s : State} (h : s.Inv) (a : Word) : (s.interworkTo a).Inv :=
  { h with pc := clearBit0_getLsbD a }

theorem State.Inv.setMainSp {s : State} (h : s.Inv) (v : Word) : (s.setMainSp v).Inv :=
  { h with msp := alignWord_alignWord v }

theorem State.Inv.setProcessSp {s : State} (h : s.Inv) (v : Word) : (s.setProcessSp v).Inv :=
  { h with psp := alignWord_alignWord v }

theorem State.Inv.setSp {s : State} (h : s.Inv) (v : Word) : (s.setSp v).Inv := by
  unfold State.setSp
  split
  · exact h.setProcessSp v
  · exact h.setMainSp v

theorem getLsbD_zero_eq_false_iff {v : Word} : v.getLsbD 0 = false ↔ v.toNat % 2 = 0 := by
  rw [getLsbD_zero_eq_decide, decide_eq_false_iff_not]
  omega

/-- Instructions have an even number of bytes, so the PC stays even (R37). -/
theorem State.Inv.advance {s : State} (h : s.Inv) {n : Nat} (hn : n % 2 = 0) : (s.advance n).Inv :=
  { h with
    pc := by
      have hpc := getLsbD_zero_eq_false_iff.1 h.pc
      rw [getLsbD_zero_eq_false_iff, State.advance_pc, BitVec.toNat_add, BitVec.toNat_ofNat]
      omega }

theorem State.Inv.enterHandler {s : State} (h : s.Inv) {e : Nat} (he : exceptionMask.getLsbD e = true) (link : Word) :
    (s.enterHandler e link).Inv :=
  { h with
    spsel := fun _ => rfl
    pending := setBit_false_within h.pending e
    active := setBit_true_within h.active he }

/-! ## Operations that stay in the context -/

/-- From `s` to `t` the exception number stays and the invariant is kept: what an operation does that neither enters an
exception nor returns from one (60_exceptions.md R400). -/
structure KeepsContext (s t : State) : Prop where
  ipsr : t.ipsr = s.ipsr
  inv : s.Inv → t.Inv

theorem KeepsContext.refl (s : State) : KeepsContext s s := ⟨rfl, id⟩

theorem KeepsContext.trans {s t u : State} (h : KeepsContext s t) (h' : KeepsContext t u) : KeepsContext s u :=
  ⟨h'.ipsr.trans h.ipsr, fun hi => h'.inv (h.inv hi)⟩

theorem KeepsContext.handlerMode {s t : State} (h : KeepsContext s t) : t.handlerMode = s.handlerMode := by
  simp only [State.handlerMode, h.ipsr]

theorem KeepsContext.advance {s t : State} (h : KeepsContext s t) {n : Nat} (hn : n % 2 = 0) :
    KeepsContext s (t.advance n) := h.trans ⟨rfl, fun hi => hi.advance hn⟩

theorem KeepsContext.writeLow {s t : State} (h : KeepsContext s t) (r : LowReg) (v : Word) :
    KeepsContext s (t.writeLow r v) := h.trans ⟨rfl, fun hi => { hi with }⟩

theorem KeepsContext.setSp {s t : State} (h : KeepsContext s t) (v : Word) : KeepsContext s (t.setSp v) :=
  h.trans ⟨t.setSp_ipsr v, fun hi => hi.setSp v⟩

theorem KeepsContext.afterDraw {s t : State} (h : KeepsContext s t) : KeepsContext s t.afterDraw :=
  h.trans ⟨rfl, fun hi => { hi with }⟩

theorem KeepsContext.branchTo {s t : State} (h : KeepsContext s t) (a : Word) : KeepsContext s (t.branchTo a) :=
  h.trans ⟨rfl, fun hi => hi.branchTo a⟩

theorem KeepsContext.interworkTo {s t : State} (h : KeepsContext s t) (a : Word) : KeepsContext s (t.interworkTo a) :=
  h.trans ⟨rfl, fun hi => hi.interworkTo a⟩

theorem keepsContext_setPending (s : State) {e : Nat} (he : exceptionMask.getLsbD e = true) (b : Bool) :
    KeepsContext s (s.setPending e b) := ⟨rfl, fun h => h.setPending he b⟩

theorem keepsContext_writeReg (s : State) (r : Reg) (v : Word) : KeepsContext s (s.writeReg r v) := by
  rcases reg_cases r with hlt | rfl | rfl | rfl
  · rw [s.writeReg_of_lt hlt]
    exact ⟨rfl, fun h => { h with }⟩
  · exact (KeepsContext.refl s).setSp v
  · exact ⟨rfl, fun h => { h with }⟩
  · exact (KeepsContext.refl s).branchTo v

/-- MSR writes neither the exception number nor, in Handler mode, CONTROL (R366, R46). -/
theorem keepsContext_writeSpecial (s : State) (r : SpecReg) (v : Word) : KeepsContext s (s.writeSpecial r v) := by
  cases r
  case msp => exact ⟨rfl, fun h => h.setMainSp v⟩
  case psp => exact ⟨rfl, fun h => h.setProcessSp v⟩
  case control =>
    simp only [State.writeSpecial]
    split
    · exact .refl s
    · rename_i hm
      exact ⟨rfl, fun h => { h with spsel := fun hm' => absurd hm' hm }⟩
  all_goals exact ⟨rfl, fun h => { h with }⟩

/-! ## Accesses -/

theorem keepsContext_readPpbReg (s : State) (r : PpbReg) : KeepsContext s (s.readPpbReg r).2 := by
  cases r
  case icsr => exact (KeepsContext.refl s).afterDraw.afterDraw
  all_goals exact ⟨rfl, fun h => { h with }⟩

theorem keepsContext_ppbRead (s : State) (a : Word) : KeepsContext s (s.ppbRead a).2 := by
  unfold State.ppbRead
  split
  · exact keepsContext_readPpbReg s _
  · exact (KeepsContext.refl s).afterDraw

theorem keepsContext_writePendPair (s : State) {e : Nat} (he : exceptionMask.getLsbD e = true) (b c : Bool) :
    KeepsContext s (s.writePendPair e b c) := by
  cases b <;> cases c
  case false.false => exact .refl s
  case true.false => exact keepsContext_setPending s he true
  case false.true => exact keepsContext_setPending s he false
  case true.true => exact (KeepsContext.refl s).afterDraw.trans (keepsContext_setPending _ he _)

/-- A register write keeps the reserved bits of the priority registers clear (R60, R72, R73). -/
theorem writePpbReg_keepsContext {s t : State} {r : PpbReg} {w : Word} (h : s.writePpbReg r w = .ok t) :
    KeepsContext s t := by
  cases r <;> simp only [State.writePpbReg] at h
  case aircr =>
    split at h
    · split at h
      · cases h
      · cases h
        exact ⟨rfl, fun h => { h with }⟩
    · cases h
      exact .refl s
  all_goals cases h
  case ispr => exact ⟨rfl, fun h => h.withIrqPending _⟩
  case icpr => exact ⟨rfl, fun h => h.withIrqPending _⟩
  case ipr n =>
    refine ⟨rfl, fun h => { h with ipr := fun k hk => ?_ }⟩
    simp only [Vector.getElem_set]
    split
    · exact and_mask_and_not w iprMask
    · exact h.ipr k hk
  case icsr =>
    exact (keepsContext_writePendPair s (by decide) _ _).trans (keepsContext_writePendPair _ (by decide) _ _)
  case shpr2 => exact ⟨rfl, fun h => { h with shpr2 := and_mask_and_not w shpr2Mask }⟩
  case shpr3 => exact ⟨rfl, fun h => { h with shpr3 := and_mask_and_not w shpr3Mask }⟩
  all_goals exact ⟨rfl, fun h => { h with }⟩

theorem ppbWrite_keepsContext {s t : State} {a w : Word} (h : s.ppbWrite a w = .ok t) : KeepsContext s t := by
  unfold State.ppbWrite at h
  split at h
  · exact writePpbReg_keepsContext h
  · cases h
    exact .refl s

theorem loadWord_keepsContext {s t : State} {a v : Word} (h : s.loadWord a = .ok (v, t)) : KeepsContext s t := by
  rcases (State.loadWord_eq_ok h).2 with ⟨-, h⟩ | ⟨-, -, -, rfl⟩
  · have := keepsContext_ppbRead s a
    rwa [h] at this
  · exact .refl t

/-- A load and what comes after it, when both answer. -/
theorem bind_loadWord_keepsContext {α : Type} {s : State} {a : Word} {f : Word × State → Access α} {x : α}
    (h : (s.loadWord a).bind f = .ok x) : ∃ v u, KeepsContext s u ∧ f (v, u) = .ok x := by
  obtain ⟨⟨v, u⟩, hu, h⟩ := Access.bind_eq_ok h
  exact ⟨v, u, loadWord_keepsContext hu, h⟩

theorem keepsContext_storeTo (s : State) {m : Memory} (a : Word) (n : Nat) (hm : s.mem.wf = true → m.wf = true) :
    KeepsContext s (s.storeTo m a n) := ⟨rfl, fun h => { h with mem := hm h.mem }⟩

theorem storeWord_keepsContext {s t : State} {a v : Word} (h : s.storeWord a v = .ok t) : KeepsContext s t := by
  rcases (State.storeWord_eq_ok h).2 with ⟨-, h⟩ | ⟨-, -, rfl⟩
  · exact ppbWrite_keepsContext h
  · exact keepsContext_storeTo s a 4 (Memory.wf_writeWord a v)

theorem storeHalfword_keepsContext {s t : State} {a : Word} {v : Halfword} (h : s.storeHalfword a v = .ok t) :
    KeepsContext s t := by
  obtain ⟨-, -, -, rfl⟩ := State.storeHalfword_eq_ok h
  exact keepsContext_storeTo s a 2 (Memory.wf_writeHalfword a v)

theorem storeByte_keepsContext {s t : State} {a : Word} {v : Byte} (h : s.storeByte a v = .ok t) :
    KeepsContext s t := by
  obtain ⟨-, -, rfl⟩ := State.storeByte_eq_ok h
  exact keepsContext_storeTo s a 1 fun hm => Memory.wf_writeByte v hm (byteAddress_lt a 0)

/-! ## Accesses in sequence -/

theorem stackWords_keepsContext {ws : List Word} {a : Word} {s m : State} {lost : Bool}
    (h : State.stackWords ws a s = .ok (m, lost)) : KeepsContext s m := by
  induction ws generalizing a s m lost with
  | nil =>
    cases h
    exact .refl _
  | cons w ws ih =>
    simp only [State.stackWords] at h
    split at h
    · exact (storeWord_keepsContext ‹_›).trans (ih h)
    · obtain ⟨r, hr, he⟩ := Access.bind_eq_ok h
      cases he
      exact ih (lost := r.2) hr
    · cases h
    · cases h

theorem loadRegisters_keepsContext {rs : List LowReg} {a : Word} {s t : State}
    (h : State.loadRegisters rs a s = .ok t) : KeepsContext s t := by
  induction rs generalizing a s with
  | nil =>
    cases h
    exact .refl _
  | cons r rs ih =>
    obtain ⟨v, u, hu, h⟩ := bind_loadWord_keepsContext h
    exact (hu.writeLow r v).trans (ih h)

theorem storeWords_keepsContext {ws : List Word} {a : Word} {s t : State} (h : State.storeWords ws a s = .ok t) :
    KeepsContext s t := by
  induction ws generalizing a s with
  | nil =>
    cases h
    exact .refl _
  | cons w ws ih =>
    obtain ⟨u, hu, h⟩ := Access.bind_eq_ok h
    exact (storeWord_keepsContext hu).trans (ih h)

theorem loadSomeRegisters_keepsContext {keep : Option LowReg} {rs : List LowReg} {a : Word} {s t : State}
    (h : State.loadSomeRegisters keep rs a s = .ok t) : KeepsContext s t := by
  induction rs generalizing a s with
  | nil =>
    cases h
    exact .refl _
  | cons r rs ih =>
    have drawn : KeepsContext s s.drawBit.2 := (KeepsContext.refl s).afterDraw
    simp only [State.loadSomeRegisters] at h
    split at h
    · rename_i v u hu
      refine drawn.trans (.trans ?_ (ih h))
      split
      · exact (loadWord_keepsContext hu).writeLow r v
      · exact .refl _
    · exact drawn.trans (ih h)
    all_goals
      split at h
      · cases h
      · exact drawn.trans (ih h)

theorem storeSomeWords_keepsContext {ws : List Word} {a : Word} {s t : State}
    (h : State.storeSomeWords ws a s = .ok t) : KeepsContext s t := by
  induction ws generalizing a s with
  | nil =>
    cases h
    exact .refl _
  | cons w ws ih =>
    have drawn : KeepsContext s s.drawBit.2 := (KeepsContext.refl s).afterDraw
    simp only [State.storeSomeWords] at h
    split at h
    · rename_i u hu
      refine drawn.trans (.trans ?_ (ih h))
      split
      · exact storeWord_keepsContext hu
      · exact .refl _
    · exact drawn.trans (ih h)
    all_goals
      split at h
      · cases h
      · exact drawn.trans (ih h)

theorem unstack_keepsContext {s t : State} {fp : Word} {f : Frame} (h : s.unstack fp = .ok (f, t)) :
    KeepsContext s t := by
  unfold State.unstack at h
  obtain ⟨_, _, k0, h⟩ := bind_loadWord_keepsContext h
  obtain ⟨_, _, k1, h⟩ := bind_loadWord_keepsContext h
  obtain ⟨_, _, k2, h⟩ := bind_loadWord_keepsContext h
  obtain ⟨_, _, k3, h⟩ := bind_loadWord_keepsContext h
  obtain ⟨_, _, k12, h⟩ := bind_loadWord_keepsContext h
  obtain ⟨_, _, klr, h⟩ := bind_loadWord_keepsContext h
  obtain ⟨_, _, kra, h⟩ := bind_loadWord_keepsContext h
  obtain ⟨_, _, kpsr, h⟩ := bind_loadWord_keepsContext h
  cases h
  exact k0.trans <| k1.trans <| k2.trans <| k3.trans <| k12.trans <| klr.trans <| kra.trans kpsr

end Sys2Proof.Machine
end

section
/-!
SUPPORT. Priorities: the values that the priority fields can hold, the execution priority, and the most urgent of a
list of exceptions (60_exceptions.md R415 to R425, R480).
-/

namespace Sys2Proof.Machine

/-! ## Exception numbers -/

theorem mem_exceptionNumbers {e : Nat} :
    e ∈ exceptionNumbers ↔ e = 2 ∨ e = 3 ∨ e = 11 ∨ e = 14 ∨ e = 15 ∨ (16 ≤ e ∧ e < 48) := by
  have irqs : (∃ n < 32, n + 16 = e) ↔ 16 ≤ e ∧ e < 48 :=
    ⟨by rintro ⟨n, hn, rfl⟩; omega, fun h => ⟨e - 16, by omega, by omega⟩⟩
  simp [exceptionNumbers, irqs]

theorem exceptionNumbers_sorted : exceptionNumbers.Pairwise (· < ·) := by decide

/-- An enabled exception is not NMI, which this hardware does not have (R405, R421). -/
theorem State.isEnabled_ne_two {s : State} {e : Nat} (h : s.isEnabled e = true) : e ≠ 2 := by
  rintro rfl
  exact absurd (show false = true from h) (by decide)

/-! ## Configurable priorities (R415) -/

/-- A byte of a word that has bits of a mask only, where the mask has bits [7:6] of the byte at most. -/
theorem byte_within {w m : Word} (h : w &&& ~~~m = 0) {j : Nat} (hm : m.extractLsb' j 8 &&& 0x3F = 0) :
    w.extractLsb' j 8 &&& 0x3F = 0 := by
  have hw : w = w &&& m := by
    apply BitVec.eq_of_getLsbD_eq
    intro k hk
    have := and_not_eq_zero_iff.1 h k hk
    cases hb : w.getLsbD k <;> simp_all
  have hand : w.extractLsb' j 8 = w.extractLsb' j 8 &&& m.extractLsb' j 8 := by
    rw [← BitVec.extractLsb'_and, ← hw]
  rw [hand, BitVec.and_assoc, hm]
  exact BitVec.and_zero

/-- The priority of an interrupt is a byte of its IPR register (R61). -/
theorem State.priority_irq (s : State) {n k : Nat} (hn : n < 8) (hk : k < 4) :
    s.priority (16 + 4 * n + k) = ((s.nvic.ipr[n].extractLsb' (8 * k) 8).toNat : Int) := by
  have hirq : 16 ≤ 16 + 4 * n + k ∧ 16 + 4 * n + k ≤ 47 := by omega
  have hword : (16 + 4 * n + k - 16) / 4 = n := by omega
  have hbyte : (16 + 4 * n + k - 16) % 4 = k := by omega
  unfold State.priority
  rw [if_neg (by omega), if_neg (by omega), if_neg (by omega), if_neg (by omega), if_neg (by omega), if_neg (by omega),
    dif_pos hirq]
  simp only [hword, hbyte]

/-- A configurable priority is a byte of a register, of which the invariant keeps bits [5:0] clear (R60, R72, R73). -/
theorem State.priority_eq_byte (s : State) {e : Nat} (he : e ∈ exceptionNumbers) (h2 : e ≠ 2) (h3 : e ≠ 3) :
    ∃ b : Byte, s.priority e = (b.toNat : Int) ∧ (s.Inv → b &&& 0x3F = 0) := by
  rcases mem_exceptionNumbers.1 he with rfl | rfl | rfl | rfl | rfl | ⟨hlo, hhi⟩
  · exact absurd rfl h2
  · exact absurd rfl h3
  · exact ⟨_, rfl, fun h => byte_within h.shpr2 (by decide)⟩
  · exact ⟨_, rfl, fun h => byte_within h.shpr3 (by decide)⟩
  · exact ⟨_, rfl, fun h => byte_within h.shpr3 (by decide)⟩
  · have fields : ∀ k < 4, iprMask.extractLsb' (8 * k) 8 &&& 0x3F = 0 := by decide
    obtain ⟨n, k, hn, hk, rfl⟩ : ∃ n k, n < 8 ∧ k < 4 ∧ e = 16 + 4 * n + k :=
      ⟨(e - 16) / 4, (e - 16) % 4, by omega, by omega, by omega⟩
    exact ⟨_, s.priority_irq hn hk, fun h => byte_within (h.ipr n hn) (fields k hk)⟩

theorem byte_clear_low_six : ∀ b : Byte, b &&& 0x3F = 0 →
    b.toNat = 0 ∨ b.toNat = 64 ∨ b.toNat = 128 ∨ b.toNat = 192 := by decide

/-- Settles O47: bits [7:6] of a byte are all that a priority field has. -/
theorem priorityValues : Obligations.PriorityValues := by
  intro s e hs he h2 h3
  obtain ⟨b, hp, hb⟩ := s.priority_eq_byte he h2 h3
  have := byte_clear_low_six b (hb (State.inv_iff.1 hs))
  omega

/-! ## The execution priority (R420) -/

theorem lt_foldl_min_iff {α : Type} (f : α → Int) (l : List α) (x p : Int) :
    x < l.foldl (fun q a => min q (f a)) p ↔ x < p ∧ ∀ a ∈ l, x < f a := by
  induction l generalizing p with
  | nil => simp
  | cons a l ih => simp [ih, and_assoc]

/-- What is more urgent than every active exception, and than Thread mode's 256. -/
theorem State.lt_activePriority_iff {s : State} {x : Int} :
    x < s.activePriority ↔ (∀ a ∈ exceptionNumbers, s.isActive a = true → x < s.priority a) ∧ x < 256 := by
  simp [State.activePriority, lt_foldl_min_iff, and_comm]

/-- PRIMASK raises the execution priority to 0 (R45). -/
theorem State.executionPriority_nonpos {s : State} (h : s.primask = true) : s.executionPriority ≤ 0 := by
  simp only [State.executionPriority, h, Bool.true_and, decide_eq_true_eq]
  split
  · exact le_refl 0
  · omega

/-- The condition that ends the sleep of WFI (R480). -/
theorem State.wakeCondition_iff {s : State} : s.wakeCondition = true ↔
    ∃ e ∈ exceptionNumbers, s.isPending e = true ∧ s.isEnabled e = true ∧
      (∀ a ∈ exceptionNumbers, s.isActive a = true → s.priority e < s.priority a) ∧ s.priority e < 256 := by
  simp [State.wakeCondition, State.lt_activePriority_iff, and_assoc]

theorem State.takeable_iff {s : State} {e : Nat} : s.takeable e = true ↔
    s.isPending e = true ∧ s.isEnabled e = true ∧ s.priority e < s.executionPriority := by
  simp [State.takeable, and_assoc]

/-! ## The most urgent exception (R416, R425) -/

theorem State.mostUrgent_eq_none_iff {s : State} {l : List Nat} : s.mostUrgent l = none ↔ l = [] := by
  cases l with
  | nil => simp [State.mostUrgent]
  | cons e es =>
    simp only [State.mostUrgent, reduceCtorEq, iff_false]
    split
    · simp
    · split <;> simp

/-- The most urgent of a rising list is in it, and comes by priority and then by number before every other one. -/
theorem State.mostUrgent_eq_some {s : State} {l : List Nat} (hl : l.Pairwise (· < ·)) {e : Nat}
    (h : s.mostUrgent l = some e) :
    e ∈ l ∧ ∀ f ∈ l, s.priority e < s.priority f ∨ (s.priority e = s.priority f ∧ e ≤ f) := by
  induction l generalizing e with
  | nil => cases h
  | cons x xs ih =>
    obtain ⟨hx, hxs⟩ := List.pairwise_cons.1 hl
    simp only [State.mostUrgent] at h
    split at h
    · rename_i hnone
      cases h
      cases State.mostUrgent_eq_none_iff.1 hnone
      simp
    · rename_i g hg
      obtain ⟨hmem, hmin⟩ := ih hxs hg
      split at h
      · cases h
        refine ⟨List.mem_cons_of_mem x hmem, fun f hf => ?_⟩
        rcases List.mem_cons.1 hf with rfl | hf
        · exact .inl ‹_›
        · exact hmin f hf
      · cases h
        refine ⟨List.mem_cons_self, fun f hf => ?_⟩
        rcases List.mem_cons.1 hf with rfl | hf
        · exact .inr ⟨rfl, le_refl _⟩
        · have hlt := hx f hf
          have := hmin f hf
          omega

/-- The exception that is taken next can be taken, and is the most urgent of those that can. -/
theorem State.nextException_eq_some {s : State} {e : Nat} (h : s.nextException = some e) :
    e ∈ exceptionNumbers ∧ s.takeable e = true ∧ ∀ f ∈ exceptionNumbers, s.takeable f = true →
      s.priority e < s.priority f ∨ (s.priority e = s.priority f ∧ e ≤ f) := by
  obtain ⟨hmem, hmin⟩ := State.mostUrgent_eq_some (exceptionNumbers_sorted.filter _) h
  obtain ⟨hnum, htake⟩ := List.mem_filter.1 hmem
  exact ⟨hnum, htake, fun f hf hft => hmin f (List.mem_filter.2 ⟨hf, hft⟩)⟩

theorem State.nextException_isSome_iff {s : State} :
    s.nextException.isSome = true ↔ ∃ e ∈ exceptionNumbers, s.takeable e = true := by
  rw [← Option.ne_none_iff_isSome, State.nextException, ne_eq, State.mostUrgent_eq_none_iff, List.filter_eq_nil_iff]
  push Not
  rfl

theorem State.isPending_of_nextException {s : State} {e : Nat} (h : s.nextException = some e) :
    s.isPending e = true :=
  (State.takeable_iff.1 (State.nextException_eq_some h).2.1).1

/-- Settles O46: below priority 0 there is HardFault only, since configurable priorities are bytes. -/
theorem primaskMasks : Obligations.PrimaskMasks := by
  intro s e _ hmask h
  obtain ⟨hnum, htake, -⟩ := State.nextException_eq_some h
  obtain ⟨-, henabled, hlt⟩ := State.takeable_iff.1 htake
  by_contra h3
  obtain ⟨b, hp, -⟩ := s.priority_eq_byte hnum (State.isEnabled_ne_two henabled) h3
  have := State.executionPriority_nonpos hmask
  omega

end Sys2Proof.Machine
end

section
/-!
SUPPORT. How an instruction can end, said once for all of them: it goes on, it raises HardFault, it is SVC, or it
returns from an exception (60_exceptions.md R400, R428, R440).
-/

namespace Sys2Proof.Machine

/-! ## Ends of an instruction -/

/-- An instruction from `s` goes on in `t`, or raises HardFault after updates that stay in the context. -/
inductive EndsHere (s t : State) : Prop
  | goesOn (h : KeepsContext s t)
  | hardFault (c : FaultCause) (u : State) (h : KeepsContext s u) (hr : raiseHardFault c s u = .next t)

/-- A branch that loads the PC as BX does, after updates that stay in the context, returns from an exception (R440). -/
def ReturnsFrom (s t : State) : Prop :=
  s.handlerMode = true ∧ ∃ u v, KeepsContext s u ∧ exceptionReturn s u v = .next t

theorem EndsHere.raised {s t : State} {c : FaultCause} (h : raiseHardFault c s s = .next t) : EndsHere s t :=
  .hardFault c s (.refl s) h

/-- What follows from an access of an instruction that ends with it. -/
theorem Access.conclude_endsHere {α : Type} {x : Access α} {s t : State} {k : α → Result}
    (h : x.conclude s k = .next t) (hk : ∀ a, x = .ok a → k a = .next t → EndsHere s t) : EndsHere s t := by
  rcases Access.conclude_eq_next h with ⟨a, ha, h⟩ | ⟨c, -, h⟩
  · exact hk a ha h
  · exact .raised h

theorem bxWritePc_ends {s u t : State} {v : Word} (hu : KeepsContext s u) (h : bxWritePc s u v = .next t) :
    EndsHere s t ∨ ReturnsFrom s t := by
  rcases bxWritePc_eq_next h with ⟨hm, -, h⟩ | rfl
  · exact .inr ⟨hu.handlerMode ▸ hm, u, v, hu, h⟩
  · exact .inl (.goesOn (hu.interworkTo v))

/-- The ends of a multiple transfer: those of what follows it, or HardFault. -/
theorem concludeTransfer_ends {s t : State} {base : Word} {whole part : Access State} {k : State → Result} {p : Prop}
    (h : concludeTransfer s base whole part k = .next t) (hp : ∀ u, part = .ok u → KeepsContext s u)
    (hw : ∀ u, whole = .ok u → k u = .next t → EndsHere s t ∨ p) : EndsHere s t ∨ p := by
  rcases concludeTransfer_eq_next h with ⟨u, hu, h⟩ | ⟨c, -, h | ⟨u, hu, h⟩ | ⟨d, -, h⟩⟩
  · exact hw u hu h
  · exact .inl (.raised h)
  · exact .inl (.hardFault c u (hp u hu) h)
  · exact .inl (.raised h)

theorem concludeTransfer_endsHere {s t : State} {base : Word} {whole part : Access State} {k : State → Result}
    (h : concludeTransfer s base whole part k = .next t) (hp : ∀ u, part = .ok u → KeepsContext s u)
    (hw : ∀ u, whole = .ok u → k u = .next t → EndsHere s t) : EndsHere s t := by
  simpa using concludeTransfer_ends (p := False) h hp fun u hu hk => .inl (hw u hu hk)

/-! ## The shared forms -/

theorem addInto_endsHere {rd : LowReg} {a b : Word} {c : Bool} {s t : State} (h : addInto rd a b c s = .next t) :
    EndsHere s t := by
  cases h
  refine .goesOn (.advance ?_ rfl)
  exact ⟨rfl, fun h => { h with }⟩

theorem logicInto_endsHere {rd : LowReg} {r : Word} {s t : State} (h : logicInto rd r s = .next t) :
    EndsHere s t := by
  cases h
  refine .goesOn (.advance ?_ rfl)
  exact ⟨rfl, fun h => { h with }⟩

theorem shiftInto_endsHere {f : Word → Nat → ShiftResult} {rd : LowReg} {v : Word} {n : Nat} {s t : State}
    (h : shiftInto f rd v n s = .next t) : EndsHere s t := by
  unfold shiftInto at h
  split at h
  · exact logicInto_endsHere h
  · cases h
    refine .goesOn (.advance ?_ rfl)
    exact ⟨rfl, fun h => { h with }⟩

theorem compare_endsHere {a b : Word} {c : Bool} {s t : State} (h : compare a b c s = .next t) : EndsHere s t := by
  cases h
  refine .goesOn (.advance ?_ rfl)
  exact ⟨rfl, fun h => { h with }⟩

theorem moveInto_endsHere {rd : LowReg} {v : Word} {s t : State} (h : moveInto rd v s = .next t) : EndsHere s t := by
  cases h
  exact .goesOn (((KeepsContext.refl s).writeLow rd v).advance rfl)

theorem loadWordInto_endsHere {rt : LowReg} {a : Word} {s t : State} (h : loadWordInto rt a s = .next t) :
    EndsHere s t :=
  Access.conclude_endsHere h fun (v, u) hu hk => by
    cases hk
    exact .goesOn (((loadWord_keepsContext hu).writeLow rt v).advance rfl)

theorem loadHalfwordInto_endsHere {f : Halfword → Word} {rt : LowReg} {a : Word} {s t : State}
    (h : loadHalfwordInto f rt a s = .next t) : EndsHere s t :=
  Access.conclude_endsHere h fun _ _ hk => moveInto_endsHere hk

theorem loadByteInto_endsHere {f : Byte → Word} {rt : LowReg} {a : Word} {s t : State}
    (h : loadByteInto f rt a s = .next t) : EndsHere s t :=
  Access.conclude_endsHere h fun _ _ hk => moveInto_endsHere hk

theorem storeWordFrom_endsHere {rt : LowReg} {a : Word} {s t : State} (h : storeWordFrom rt a s = .next t) :
    EndsHere s t :=
  Access.conclude_endsHere h fun u hu hk => by
    cases hk
    exact .goesOn ((storeWord_keepsContext hu).advance rfl)

theorem storeHalfwordFrom_endsHere {rt : LowReg} {a : Word} {s t : State} (h : storeHalfwordFrom rt a s = .next t) :
    EndsHere s t :=
  Access.conclude_endsHere h fun u hu hk => by
    cases hk
    exact .goesOn ((storeHalfword_keepsContext hu).advance rfl)

theorem storeByteFrom_endsHere {rt : LowReg} {a : Word} {s t : State} (h : storeByteFrom rt a s = .next t) :
    EndsHere s t :=
  Access.conclude_endsHere h fun u hu hk => by
    cases hk
    exact .goesOn ((storeByte_keepsContext hu).advance rfl)

/-- An instruction that moves the stack pointer and goes on. -/
theorem setSp_endsHere {s u t : State} {v : Word} (hu : KeepsContext s u)
    (h : (.next ((u.setSp v).advance 2) : Result) = .next t) : EndsHere s t := by
  cases h
  exact .goesOn ((hu.setSp v).advance rfl)

/-! ## Multiple transfers -/

theorem execLdm_endsHere {rn : LowReg} {list : BitVec 8} {s t : State} (h : execLdm rn list s = .next t) :
    EndsHere s t := by
  unfold execLdm at h
  simp only at h
  split at h
  · cases h
  · refine concludeTransfer_endsHere h (fun _ => loadSomeRegisters_keepsContext) fun u hu hk => ?_
    cases hk
    have loaded := loadRegisters_keepsContext hu
    split
    · exact .goesOn (loaded.advance rfl)
    · exact .goesOn ((loaded.writeLow _ _).advance rfl)

theorem keepsContext_stmWords (s : State) (rn : LowReg) (rs : List LowReg) : KeepsContext s (s.stmWords rn rs).2 := by
  unfold State.stmWords
  split
  · exact (KeepsContext.refl s).afterDraw
  · exact .refl s

theorem execStm_endsHere {rn : LowReg} {list : BitVec 8} {s t : State} (h : execStm rn list s = .next t) :
    EndsHere s t := by
  have drawn := keepsContext_stmWords s rn (registersOf list)
  unfold execStm at h
  simp only at h
  split at h
  · cases h
  · refine concludeTransfer_endsHere h (fun u hu => drawn.trans (storeSomeWords_keepsContext hu)) fun u hu hk => ?_
    cases hk
    exact .goesOn (((drawn.trans (storeWords_keepsContext hu)).writeLow _ _).advance rfl)

theorem execPush_endsHere {lr : Bool} {list : BitVec 8} {s t : State} (h : execPush lr list s = .next t) :
    EndsHere s t := by
  unfold execPush at h
  simp only at h
  split at h
  · cases h
  · exact concludeTransfer_endsHere h (fun _ => storeSomeWords_keepsContext) fun u hu hk =>
      setSp_endsHere (storeWords_keepsContext hu) hk

theorem execPop_false_endsHere {list : BitVec 8} {s t : State} (h : execPop false list s = .next t) :
    EndsHere s t := by
  unfold execPop at h
  simp only [Bool.false_eq_true, if_false] at h
  split at h
  · cases h
  · exact concludeTransfer_endsHere h (fun _ => loadSomeRegisters_keepsContext) fun u hu hk =>
      setSp_endsHere (loadRegisters_keepsContext hu) hk

theorem execPop_true_ends {list : BitVec 8} {s t : State} (h : execPop true list s = .next t) :
    EndsHere s t ∨ ReturnsFrom s t := by
  unfold execPop at h
  simp only [if_true] at h
  refine concludeTransfer_ends h (fun _ => loadSomeRegisters_keepsContext) fun u hu hk => ?_
  split at hk
  · rename_i u' hu'
    exact bxWritePc_ends (((loadRegisters_keepsContext hu).trans (loadWord_keepsContext hu')).setSp _) hk
  · exact .inl <| Access.conclude_endsHere hk fun p hp hr => .hardFault _ p (loadSomeRegisters_keepsContext hp) hr
  · cases hk
  · cases hk

/-! ## Miscellaneous instructions -/

theorem execBx_ends {rm : Reg} {s t : State} (h : execBx rm s = .next t) : EndsHere s t ∨ ReturnsFrom s t := by
  unfold execBx at h
  split at h
  · cases h
  · exact bxWritePc_ends (.refl s) h

theorem execBlx_endsHere {rm : Reg} {s t : State} (h : execBlx rm s = .next t) : EndsHere s t := by
  unfold execBlx at h
  split at h
  · cases h
  · cases h
    refine .goesOn (.interworkTo ?_ _)
    exact ⟨rfl, fun h => { h with }⟩

theorem execBl_endsHere {off24 : BitVec 24} {s t : State} (h : execBl off24 s = .next t) : EndsHere s t := by
  cases h
  refine .goesOn (.branchTo ?_ _)
  exact ⟨rfl, fun h => { h with }⟩

theorem execBCond_endsHere {c : Cond} {imm8 : BitVec 8} {s t : State} (h : execBCond c imm8 s = .next t) :
    EndsHere s t := by
  unfold execBCond at h
  split at h
  · cases h
    exact .goesOn (.branchTo (.refl s) _)
  · cases h
    exact .goesOn ((KeepsContext.refl s).advance rfl)

theorem execAddHigh_endsHere {rdn rm : Reg} {s t : State} (h : execAddHigh rdn rm s = .next t) : EndsHere s t := by
  unfold execAddHigh at h
  simp only at h
  split at h
  · cases h
  · split at h
    · cases h
      exact .goesOn (.branchTo (.refl s) _)
    · cases h
      exact .goesOn ((keepsContext_writeReg s _ _).advance rfl)

theorem execMovHigh_endsHere {rd rm : Reg} {s t : State} (h : execMovHigh rd rm s = .next t) : EndsHere s t := by
  unfold execMovHigh at h
  split at h
  · cases h
    exact .goesOn (.branchTo (.refl s) _)
  · cases h
    exact .goesOn ((keepsContext_writeReg s _ _).advance rfl)

theorem execCmpHigh_endsHere {rn rm : Reg} {s t : State} (h : execCmpHigh rn rm s = .next t) : EndsHere s t := by
  unfold execCmpHigh at h
  split at h
  · cases h
  · exact compare_endsHere h

theorem execMrs_endsHere {rd : Reg} {spec : SpecReg} {s t : State} (h : execMrs rd spec s = .next t) :
    EndsHere s t := by
  unfold execMrs at h
  split at h
  · cases h
  · cases h
    exact .goesOn ((keepsContext_writeReg s _ _).advance rfl)

theorem execMsr_endsHere {spec : SpecReg} {rn : Reg} {s t : State} (h : execMsr spec rn s = .next t) :
    EndsHere s t := by
  unfold execMsr at h
  split at h
  · cases h
  · cases h
    exact .goesOn ((keepsContext_writeSpecial s _ _).advance rfl)

theorem execWfi_endsHere {s t : State} (h : execWfi s = .next t) : EndsHere s t := by
  unfold execWfi at h
  split at h
  · cases h
    exact .goesOn ((KeepsContext.refl s).advance rfl)
  · cases h
    refine .goesOn (.advance ?_ rfl)
    exact ⟨rfl, fun h => { h with }⟩

theorem execWfe_endsHere {s t : State} (h : execWfe s = .next t) : EndsHere s t := by
  unfold execWfe at h
  simp only at h
  split at h
  · cases h
    exact .goesOn ((KeepsContext.refl s).afterDraw.advance rfl)
  · split at h
    · cases h
      refine .goesOn (.advance ?_ rfl)
      exact ⟨rfl, fun h => { h with }⟩
    · cases h
      refine .goesOn (.advance ?_ rfl)
      exact ⟨rfl, fun h => { h with }⟩
  · exact .hardFault _ _ (KeepsContext.refl s).afterDraw h

theorem execSvc_ends {imm8 : BitVec 8} {s t : State} (h : execSvc imm8 s = .next t) :
    EndsHere s t ∨ raiseSvCall s = .next t := by
  unfold execSvc at h
  split at h
  · exact .inl (.raised h)
  · exact .inr h

/-! ## Every instruction -/

/-- How an instruction that answers ends: in the context it began in, by HardFault, by entering SVCall, or by an
exception return of BX or POP. -/
theorem exec_ends {i : Instr} {s t : State} (h : exec i s = .next t) :
    EndsHere s t ∨ ((∃ imm8, i = .svc imm8) ∧ raiseSvCall s = .next t) ∨
      (((∃ rm, i = .bx rm) ∨ ∃ list, i = .pop true list) ∧ ReturnsFrom s t) := by
  cases i <;> simp only [exec] at h
  case svc imm8 => exact (execSvc_ends h).imp_right fun h => .inl ⟨⟨imm8, rfl⟩, h⟩
  case bx rm => exact (execBx_ends h).imp_right fun h => .inr ⟨.inl ⟨rm, rfl⟩, h⟩
  case pop pc list =>
    cases pc
    · exact .inl (execPop_false_endsHere h)
    · exact (execPop_true_ends h).imp_right fun h => .inr ⟨.inr ⟨list, rfl⟩, h⟩
  all_goals left
  case ldm => exact execLdm_endsHere h
  case stm => exact execStm_endsHere h
  case push => exact execPush_endsHere h
  case wfe => exact execWfe_endsHere h
  case wfi => exact execWfi_endsHere h
  case bkpt | udf | udfW => exact .raised h
  case addHigh => exact execAddHigh_endsHere h
  case movHigh => exact execMovHigh_endsHere h
  case mrs => exact execMrs_endsHere h
  case msr => exact execMsr_endsHere h
  case blx => exact execBlx_endsHere h
  case bl => exact execBl_endsHere h
  case cmpHigh => exact execCmpHigh_endsHere h
  case bCond => exact execBCond_endsHere h
  case addSp | subSp => exact setSp_endsHere (.refl s) h
  case adr | addRdSp => exact moveInto_endsHere h
  case adcs | addsReg | addsImm3 | addsImm8 | rsbs | sbcs | subsReg | subsImm3 | subsImm8 => exact addInto_endsHere h
  case ands | orrs | eors | bics | movsReg | movsImm | mvns | muls => exact logicInto_endsHere h
  case asrsImm | asrsReg | lslsImm | lslsReg | lsrsImm | lsrsReg | rors => exact shiftInto_endsHere h
  case cmn | cmpImm | cmpLow => exact compare_endsHere h
  case rev | rev16 | revsh | sxtb | sxth | uxtb | uxth => exact moveInto_endsHere h
  case ldrLit | ldrImm | ldrSp | ldrReg => exact loadWordInto_endsHere h
  case ldrhImm | ldrhReg | ldrshReg => exact loadHalfwordInto_endsHere h
  case ldrbImm | ldrbReg | ldrsbReg => exact loadByteInto_endsHere h
  case strImm | strSp | strReg => exact storeWordFrom_endsHere h
  case strhImm | strhReg => exact storeHalfwordFrom_endsHere h
  case strbImm | strbReg => exact storeByteFrom_endsHere h
  case b =>
    cases h
    exact .goesOn (.branchTo (.refl s) _)
  case dmb | dsb | isb =>
    cases h
    exact .goesOn ((KeepsContext.refl s).advance rfl)
  case nop | yield | sev | cpsie | cpsid | tst =>
    cases h
    refine .goesOn (.advance ?_ rfl)
    exact ⟨rfl, fun h => { h with }⟩

end Sys2Proof.Machine
end

section
/-!
SUPPORT. Exceptions, reset and steps keep the invariant, and who changes the exception number (60_exceptions.md R400,
R430, R440; 70_reset_and_hazards.md R500).
-/

namespace Sys2Proof.Machine

/-! ## Exceptions -/

theorem vectorTo_inv {m t : State} {e : Nat} {link : Word} (hm : m.Inv) (he : exceptionMask.getLsbD e = true)
    (h : m.vectorTo e link = .ok t) : t.Inv := by
  obtain ⟨v, u, hu, rfl⟩ := State.vectorTo_eq_ok h
  exact (((loadWord_keepsContext hu).inv hm).enterHandler he link).interworkTo v

theorem exceptionEntry_inv {f s t : State} {e : Nat} {ret : Word} (hf : f.Inv) (hs : s.Inv)
    (he : exceptionMask.getLsbD e = true) (h : exceptionEntry f e ret s = .next t) : t.Inv := by
  rcases exceptionEntry_eq_next h with ⟨m, rfl⟩ | ⟨m, lost, hm, hv⟩
  · exact hf.lockedUp m
  · have stacked : m.Inv := (stackWords_keepsContext hm).inv (hs.setSp _)
    rcases hv with ⟨-, hv⟩ | hv
    · exact vectorTo_inv stacked he hv
    · exact vectorTo_inv stacked (by decide) hv

theorem raiseHardFault_inv {c : FaultCause} {f s t : State} (hf : f.Inv) (hs : s.Inv)
    (h : raiseHardFault c f s = .next t) : t.Inv := by
  rcases raiseHardFault_eq_next h with ⟨-, rfl⟩ | ⟨-, h⟩
  · exact hf.lockedUp s
  · exact exceptionEntry_inv hf (hs.setPending (by decide) true) (by decide) h

/-- Only a return to Thread mode unstacks from PSP (R441). -/
theorem returnKindOf_toThread {v : Word} {k : ReturnKind} (h : returnKindOf v = some k) :
    k.fromProcess = true → k.toThread = true := by
  unfold returnKindOf at h
  split at h
  · cases h
    exact nofun
  · split at h
    · cases h
      exact nofun
    · split at h
      · cases h
        exact fun _ => rfl
      · cases h

/-- The restored context, where a return to Handler mode is on MSP (R440, R441, R46). -/
theorem restore_inv {s : State} {k : ReturnKind} {fp : Word} {f : Frame} (hs : s.Inv)
    (hm : (s.restore k fp f).handlerMode = true → k.fromProcess = false) : (s.restore k fp f).Inv := by
  unfold State.restore at hm ⊢
  cases hk : k.fromProcess <;> simp only [hk, if_true, if_false, Bool.false_eq_true] at hm ⊢
  · refine State.Inv.setMainSp ?_ _
    exact { hs with pc := clearBit0_getLsbD _, spsel := fun _ => rfl }
  · refine State.Inv.setProcessSp ?_ _
    exact { hs with pc := clearBit0_getLsbD _, spsel := fun h => absurd (hm h) (by decide) }

theorem sleepOnExit_inv {s : State} (hs : s.Inv) (k : ReturnKind) : (s.sleepOnExit k).Inv := by
  unfold State.sleepOnExit
  split
  · exact { hs with }
  · exact hs

theorem exceptionReturn_inv {f s t : State} {v : Word} (hf : f.Inv) (hs : s.Inv)
    (h : exceptionReturn f s v = .next t) : t.Inv := by
  obtain ⟨k, hk, -, ⟨fr, w, hu, rfl, hmode⟩ | rfl | ⟨c, h⟩⟩ := exceptionReturn_eq_next h
  · have popped : w.Inv := (unstack_keepsContext hu).inv hs.endException
    refine sleepOnExit_inv (restore_inv popped fun hm => ?_) k
    rw [hm, Bool.not_true] at hmode
    exact Bool.eq_false_iff.2 fun hp => by simp [returnKindOf_toThread hk hp] at hmode
  · exact hf.lockedUp s
  · exact raiseHardFault_inv hf hs.endException h

/-! ## Instructions -/

theorem exec_inv {i : Instr} {s t : State} (hs : s.Inv) (h : exec i s = .next t) : t.Inv := by
  rcases exec_ends h with hend | ⟨-, h⟩ | ⟨-, -, u, v, hu, h⟩
  · rcases hend with hk | ⟨c, u, hu, h⟩
    · exact hk.inv hs
    · exact raiseHardFault_inv hs (hu.inv hs) h
  · exact exceptionEntry_inv hs (hs.setPending (by decide) true) (by decide) h
  · exact exceptionReturn_inv hs (hu.inv hs) h

/-! ## Steps -/

theorem tick_inv {s : State} (hs : s.Inv) : s.tick.Inv := by
  unfold State.tick
  split
  · split
    · exact { hs with }
    · simp only
      split
      · split
        · refine State.Inv.setPending ?_ (by decide) true
          exact { hs with }
        · exact { hs with }
      · exact { hs with }
  · exact hs

theorem ticks_inv (n : Nat) {s : State} (hs : s.Inv) : (s.ticks n).Inv := by
  induction n generalizing s with
  | zero => exact hs
  | succ n ih => exact ih (tick_inv hs)

theorem runAgents_inv {s : State} (hs : s.Inv) (i : HostInput) : (s.runAgents i).Inv :=
  ticks_inv _ { hs.withIrqPending (s.irqPending ||| _) with }

theorem wakeUp_inv {s : State} (hs : s.Inv) (b : Bool) : (s.wakeUp b).Inv := by
  unfold State.wakeUp
  split
  · exact hs
  · split
    · exact { hs with }
    · exact hs
  · split
    · exact { hs with }
    · split
      · exact { hs with }
      · exact hs

/-- A core step keeps the invariant: only a pending exception is taken, and those are exception numbers (R90, R425). -/
theorem coreStep_inv {s t : State} {b : Bool} (hs : s.Inv) (h : s.coreStep b = .next t) : t.Inv := by
  rcases State.coreStep_eq_next h with ⟨e, -, he, h⟩ | ⟨i, -, h⟩ | ⟨c, -, h⟩
  · exact exceptionEntry_inv hs hs (hs.mask_of_isPending (State.isPending_of_nextException he)) h
  · exact exec_inv hs h
  · exact raiseHardFault_inv hs hs h

theorem proceed_inv {s t : State} {i : HostInput} (hs : s.Inv) (h : s.proceed i = .next t) : t.Inv := by
  have agents := runAgents_inv hs i
  rcases State.proceed_eq_next h with rfl | rfl | h
  · exact agents
  · exact wakeUp_inv agents i.wake
  · exact coreStep_inv (wakeUp_inv agents i.wake) h

/-! ## Reset (R500) -/

theorem zeroIpr_within (n : Nat) (h : n < 8) : (Vector.replicate 8 (0 : Word))[n] &&& ~~~iprMask = 0 := by
  rw [Vector.getElem_replicate]
  exact BitVec.zero_and

/-- The reset values meet the invariant whatever the machine was doing, in a canonical memory. -/
theorem resetRegisters_inv {s : State} (hm : s.mem.wf = true) (lines : BitVec 32) : (s.resetRegisters lines).Inv where
  mem := hm
  pc := BitVec.getLsbD_zero
  msp := BitVec.zero_and
  psp := alignWord_alignWord _
  spsel := fun _ => rfl
  pending := BitVec.zero_and
  active := BitVec.zero_and
  ipr := zeroIpr_within
  shpr2 := BitVec.zero_and
  shpr3 := BitVec.zero_and

theorem warmReset_inv {s t : State} {lines : BitVec 32} (hm : s.mem.wf = true) (h : s.warmReset lines = .next t) :
    t.Inv := by
  have start := resetRegisters_inv hm lines
  unfold State.warmReset State.loadResetVector at h
  split at h
  · rename_i sp v u hvec
    cases h
    obtain ⟨_, _, hsp, hvec⟩ := bind_loadWord_keepsContext hvec
    obtain ⟨_, _, hpc, hvec⟩ := bind_loadWord_keepsContext hvec
    cases hvec
    exact (((hsp.trans hpc).inv start).setMainSp sp).interworkTo v
  · cases h
    exact start.lockedUp _
  · cases h
  · cases h

/-- Every step keeps the invariant. -/
theorem step_inv {s t : State} (hs : s.Inv) (h : step s = .next t) : t.Inv := by
  have input : s.takeInput.2.Inv := by
    unfold State.takeInput
    split
    · exact { hs with }
    · exact { hs with }
  rcases State.cycle_eq_next h with ⟨-, h⟩ | ⟨u, -, hu, h⟩ | ⟨-, -, h⟩
  · exact warmReset_inv input.mem h
  · exact warmReset_inv (State.forget_mem_wf (proceed_inv input hu).mem) h
  · exact proceed_inv input h

/-- Settles O6, by what each part of a step keeps. -/
theorem stepKeepsInvariant : Obligations.StepKeepsInvariant := fun _ _ hs h =>
  State.inv_iff.2 (step_inv (State.inv_iff.1 hs) h)

/-- Settles O7, part by part. -/
theorem resetInvariant : Obligations.ResetInvariant :=
  State.inv_iff.2
    { mem := rfl, pc := rfl, msp := rfl, psp := rfl, spsel := fun _ => rfl
      pending := BitVec.zero_and, active := BitVec.zero_and
      ipr := zeroIpr_within, shpr2 := BitVec.zero_and, shpr3 := BitVec.zero_and }

/-- Settles O8, field by field. -/
theorem resetState : Obligations.ResetState := by
  refine ⟨rfl, rfl, rfl, rfl, rfl, rfl, rfl, fun n => ?_, rfl, rfl, rfl, rfl, rfl, rfl⟩
  exact Vector.getElem_replicate _

/-! ## Who changes the exception number (R400) -/

theorem vectorTo_ipsr {m t : State} {e : Nat} {link : Word} (h : m.vectorTo e link = .ok t) :
    t.ipsr = BitVec.ofNat 6 e := by
  obtain ⟨v, u, -, rfl⟩ := State.vectorTo_eq_ok h
  rfl

/-- After an exception entry: the exception number of the frozen state in lockup, that of the exception, or
HardFault's. -/
theorem exceptionEntry_ipsr {f s t : State} {e : Nat} {ret : Word} (h : exceptionEntry f e ret s = .next t) :
    t.ipsr = f.ipsr ∨ t.ipsr = BitVec.ofNat 6 e ∨ t.ipsr = 3 := by
  rcases exceptionEntry_eq_next h with ⟨m, rfl⟩ | ⟨m, lost, -, ⟨-, hv⟩ | hv⟩
  · exact .inl rfl
  · exact .inr (.inl (vectorTo_ipsr hv))
  · exact .inr (.inr (vectorTo_ipsr hv))

theorem raiseHardFault_ipsr {c : FaultCause} {f s t : State} (h : raiseHardFault c f s = .next t) :
    t.ipsr = f.ipsr ∨ t.ipsr = 3 := by
  rcases raiseHardFault_eq_next h with ⟨-, rfl⟩ | ⟨-, h⟩
  · exact .inl rfl
  · exact (exceptionEntry_ipsr h).imp_right fun h => h.elim id id

/-- Settles O48, by the ends that an instruction can have. -/
theorem onlyExceptionsChangeMode : Obligations.OnlyExceptionsChangeMode := by
  intro i s t h hne
  rcases exec_ends h with (hk | ⟨c, u, -, hr⟩) | ⟨hi, hr⟩ | ⟨hi, hm, -⟩
  · exact absurd hk.ipsr hne
  · exact .inl (congrArg BitVec.toNat ((raiseHardFault_ipsr hr).resolve_left hne))
  · rcases (exceptionEntry_ipsr hr).resolve_left hne with h11 | h3
    · exact .inr (.inl ⟨congrArg BitVec.toNat h11, hi⟩)
    · exact .inl (congrArg BitVec.toNat h3)
  · exact .inr (.inr ⟨hm, hi⟩)

end Sys2Proof.Machine
end

section
/-!
SUPPORT. The special registers and sleep: MRS, MSR and WFI, and steps of a machine that sleeps or is in lockup
(44_misc.md R364, R366, R373; 60_exceptions.md R445, R480 to R482).
-/

namespace Sys2Proof.Machine

/-! ## The special registers as numbers (R39 to R46) -/

/-- The flags are a number of 4 bits above 28 zeros (R39, R40). -/
theorem Apsr.toWord_eq_shiftLeft (f : Apsr) : f.toWord.toNat =
    (2 ^ 3 * bitValue f.n + 2 ^ 2 * bitValue f.z + 2 * bitValue f.c + bitValue f.v) <<< 28 := by
  simp only [Apsr.toWord, toNat_append_eq, bitValue_eq_toNat, BitVec.toNat_ofBool, BitVec.toNat_ofNat,
    Nat.shiftLeft_eq]
  omega

theorem Apsr.toWord_toNat (f : Apsr) : f.toWord.toNat =
    2 ^ 31 * bitValue f.n + 2 ^ 30 * bitValue f.z + 2 ^ 29 * bitValue f.c + 2 ^ 28 * bitValue f.v := by
  rw [f.toWord_eq_shiftLeft, Nat.shiftLeft_eq]
  omega

/-- The flags lie above the exception number, so that neither reads into the other (R39, R41). -/
theorem Apsr.toWord_or_ipsr (f : Apsr) (i : BitVec 6) :
    (f.toWord ||| i.setWidth 32).toNat = f.toWord.toNat + i.toNat := by
  have hi : i.toNat < 2 ^ 28 := Nat.lt_trans i.isLt (by decide)
  rw [BitVec.toNat_or, BitVec.toNat_setWidth, Nat.mod_eq_of_lt (by omega), f.toWord_eq_shiftLeft,
    Nat.shiftLeft_add_eq_or_of_lt hi]

theorem State.onProcessStack_eq (s : State) : s.onProcessStack = (decide (s.ipsr.toNat = 0) && s.spsel) := by
  have h : s.handlerMode = !decide (s.ipsr.toNat = 0) := by
    rw [Bool.eq_iff_iff]
    simp [State.handlerMode, BitVec.toNat_eq]
  rw [State.onProcessStack, h, Bool.not_not]

theorem State.readSpecial_control_toNat (s : State) :
    (s.readSpecial .control).toNat = if s.ipsr.toNat = 0 then 2 * bitValue s.spsel else 0 := by
  simp only [State.readSpecial, s.onProcessStack_eq, toNat_append_eq, bitValue_eq_toNat, BitVec.toNat_ofBool,
    BitVec.toNat_ofNat]
  by_cases h : s.ipsr.toNat = 0
  · simp [h, Nat.mul_comm]
  · simp [h]

/-! ## MRS and MSR -/

theorem execMrs_eq (s : State) {rd : Reg} (spec : SpecReg) (h13 : rd ≠ 13) (h15 : rd ≠ 15) :
    exec (.mrs rd spec) s = .next ((s.writeReg rd (s.readSpecial spec)).advance 4) :=
  if_neg (not_or.2 ⟨h13, h15⟩)

/-- Settles O32: what MRS reads is one word, as a number for each name. -/
theorem mrsReads : Obligations.MrsReads := by
  intro s rd spec h13 h15
  refine ⟨_, execMrs_eq s spec h13 h15, (s.writeReg_frame _ h15).2.1, registersOnly_writeReg s _ h15 4, ?_⟩
  rw [State.readReg_advance _ 4 h15, s.readReg_writeReg_self rd _ h15, if_neg h13]
  have hipsr : (s.ipsr.setWidth 32).toNat = s.ipsr.toNat := by
    rw [BitVec.toNat_setWidth]
    omega
  cases spec
  case apsr | eapsr => exact s.apsr.toWord_toNat
  case iapsr | psr => exact (s.apsr.toWord_or_ipsr s.ipsr).trans (by rw [s.apsr.toWord_toNat])
  case ipsr | iepsr => exact hipsr
  case epsr => rfl
  case msp => exact alignWord_toNat s.msp
  case psp => exact alignWord_toNat s.psp
  case primask =>
    simp only [State.readSpecial, toNat_append_eq, bitValue_eq_toNat, BitVec.toNat_ofBool, BitVec.toNat_ofNat]
    omega
  case control => exact s.readSpecial_control_toNat

theorem execMsr_eq (s : State) (spec : SpecReg) {rn : Reg} (h13 : rn ≠ 13) (h15 : rn ≠ 15) :
    exec (.msr spec rn) s = .next ((s.writeSpecial spec (s.readReg rn)).advance 4) :=
  if_neg (not_or.2 ⟨h13, h15⟩)

/-- Settles O33, name by name. -/
theorem msrWrites : Obligations.MsrWrites := by
  intro s spec rn h13 h15
  refine ⟨_, execMsr_eq s spec h13 h15, ?_⟩
  generalize s.readReg rn = v
  cases spec
  case control =>
    cases hm : s.handlerMode <;> simp only [State.writeSpecial, hm, Bool.false_eq_true, if_false, if_true]
    · exact ⟨rfl, rfl, rfl, .of_eq rfl, rfl, rfl, rfl, rfl, rfl, by constructor <;> rfl⟩
    · exact ⟨rfl, rfl, rfl, .of_eq rfl, rfl, rfl, rfl, rfl, rfl, by constructor <;> rfl⟩
  all_goals exact ⟨rfl, rfl, rfl, .of_eq rfl, rfl, rfl, rfl, rfl, rfl, by constructor <;> rfl⟩

/-! ## WFI -/

theorem execWfi_eq (s : State) : exec .wfi s = .next (({ s with
      sleep := if s.wakeCondition then s.sleep else .asleep .interrupt s.scb.sleepDeep }).advance 2) := by
  simp only [exec, execWfi]
  split
  · rfl
  · rfl

/-- Settles O34: only the sleep state and the PC change, the sleep state by the wake-up condition. -/
theorem wfiSleeps : Obligations.WfiSleeps := by
  intro s
  refine ⟨_, execWfi_eq s, rfl, rfl, .of_eq [] rfl rfl rfl rfl rfl rfl, .of_eq rfl, by constructor <;> rfl,
    fun h => ?_, fun h => ?_⟩
  · exact if_pos (State.wakeCondition_iff.2 h)
  · exact if_neg fun hw => h (State.wakeCondition_iff.1 hw)

/-! ## The agents -/

/-- One tick of SysTick's clock writes SysTick, pending bits and the event register only (R470, R482). -/
theorem State.tick_eq (s : State) :
    ∃ p c e, s.tick = { s with nvic := { s.nvic with pending := p }, systick := c, event := e } := by
  unfold State.tick
  split
  · split
    · exact ⟨_, _, _, rfl⟩
    · simp only
      split
      · split
        · exact ⟨_, _, _, rfl⟩
        · exact ⟨_, _, _, rfl⟩
      · exact ⟨_, _, _, rfl⟩
  · exact ⟨_, _, _, rfl⟩

theorem State.ticks_eq (n : Nat) (s : State) :
    ∃ p c e, s.ticks n = { s with nvic := { s.nvic with pending := p }, systick := c, event := e } := by
  induction n generalizing s with
  | zero => exact ⟨_, _, _, rfl⟩
  | succ n ih =>
    obtain ⟨p, c, e, h⟩ := s.tick_eq
    obtain ⟨p', c', e', h'⟩ := ih s.tick
    exact ⟨p', c', e', by rw [State.ticks, h', h]⟩

/-- The agents write the pending bits, the record of the lines, SysTick and the event register only (R461, R470). -/
theorem State.runAgents_eq (s : State) (i : HostInput) :
    ∃ p l c e, s.runAgents i =
      { s with nvic := { s.nvic with pending := p, line := l, lastLine := l }, systick := c, event := e } := by
  obtain ⟨p, c, e, h⟩ := (s.sampleLines i.lines).ticks_eq
    (if (s.sampleLines i.lines).systick.clkSource then i.cpuTicks else i.refTicks)
  exact ⟨p, i.lines, c, e, h⟩

theorem State.runAgents_lockup (s : State) (i : HostInput) : (s.runAgents i).lockup = s.lockup := by
  obtain ⟨p, l, c, e, h⟩ := s.runAgents_eq i
  rw [h]

theorem State.runAgents_sleep (s : State) (i : HostInput) : (s.runAgents i).sleep = s.sleep := by
  obtain ⟨p, l, c, e, h⟩ := s.runAgents_eq i
  rw [h]

/-! ## Steps without an instruction -/

theorem step_eq_proceed {s : State} (h : s.noReset) : step s = s.takeInput.2.proceed s.takeInput.1 := by
  obtain ⟨habsent, hrequest⟩ := h
  simp [step, State.cycle, hrequest, habsent]

/-- Settles O49: in lockup the step ends with the agents. -/
theorem lockupRunsNothing : Obligations.LockupRunsNothing := by
  intro s hl hr
  have hstep : step s = .next (s.takeInput.2.runAgents s.takeInput.1) := by
    rw [step_eq_proceed hr]
    exact if_pos (by rw [State.runAgents_lockup, State.takeInput_lockup, hl])
  obtain ⟨p, l, c, e, hagents⟩ := s.takeInput.2.runAgents_eq s.takeInput.1
  refine ⟨_, hstep, ?_⟩
  rw [hagents]
  simp [hl]

/-! ## Sleep (R480 to R482) -/

/-- What wakes up a machine whose agents leave it in `u`: a spurious wake-up, or the condition that belongs to what put
it to sleep. -/
def State.wakes (u : State) (cause : SleepCause) (spurious : Bool) : Prop :=
  spurious = true ∨ match cause with
    | .interrupt => ∃ e ∈ exceptionNumbers, u.isPending e = true ∧ u.isEnabled e = true ∧
        (∀ a ∈ exceptionNumbers, u.isActive a = true → u.priority e < u.priority a) ∧ u.priority e < 256
    | .event => u.event = true ∨
        ∃ e ∈ exceptionNumbers, u.isPending e = true ∧ u.isEnabled e = true ∧ u.priority e < u.executionPriority

/-- The machine awake again; a wake-up from WFE clears the event register. -/
def State.awoken (u : State) (cause : SleepCause) : State :=
  { u with sleep := .awake, event := match cause with
    | .interrupt => u.event
    | .event => false }

theorem State.wakes_interrupt_iff {u : State} {b : Bool} :
    u.wakes .interrupt b ↔ (b || u.wakeCondition) = true := by
  simp [State.wakes, State.wakeCondition_iff]

theorem State.wakes_event_iff {u : State} {b : Bool} :
    u.wakes .event b ↔ u.event = true ∨ (b || u.nextException.isSome) = true := by
  simp [State.wakes, State.nextException_isSome_iff, State.takeable_iff, or_left_comm]

theorem State.wakeUp_of_wakes {u : State} {cause : SleepCause} {deep b : Bool} (hs : u.sleep = .asleep cause deep)
    (h : u.wakes cause b) : u.wakeUp b = u.awoken cause := by
  unfold State.wakeUp
  rw [hs]
  cases cause
  case interrupt => exact if_pos (State.wakes_interrupt_iff.1 h)
  case event =>
    cases he : u.event
    · have hb : (b || u.nextException.isSome) = true := by simpa [he] using State.wakes_event_iff.1 h
      simp [State.awoken, hb]
    · rfl

theorem State.wakeUp_of_not_wakes {u : State} {cause : SleepCause} {deep b : Bool}
    (hs : u.sleep = .asleep cause deep) (h : ¬u.wakes cause b) : u.wakeUp b = u := by
  unfold State.wakeUp
  rw [hs]
  cases cause
  case interrupt => exact if_neg (mt State.wakes_interrupt_iff.2 h)
  case event =>
    obtain ⟨hevent, hnext⟩ := not_or.1 (mt State.wakes_event_iff.2 h)
    exact (if_neg hevent).trans (if_neg hnext)

/-- A machine that does not wake up sleeps on as the agents leave it. -/
theorem proceed_of_not_wakes {s : State} {cause : SleepCause} {deep : Bool} {i : HostInput}
    (hs : s.sleep = .asleep cause deep) (hl : s.lockup = false) (h : ¬(s.runAgents i).wakes cause i.wake) :
    s.proceed i = .next (s.runAgents i) := by
  have hsleep := (s.runAgents_sleep i).trans hs
  simp [State.proceed, State.runAgents_lockup, hl, State.wakeUp_of_not_wakes hsleep h, hsleep]

/-- A machine that wakes up goes on awake in the same step. -/
theorem proceed_of_wakes {s : State} {cause : SleepCause} {deep : Bool} {i : HostInput}
    (hs : s.sleep = .asleep cause deep) (hl : s.lockup = false) (h : (s.runAgents i).wakes cause i.wake) :
    s.proceed i = ((s.runAgents i).awoken cause).coreStep i.takeException := by
  have hsleep := (s.runAgents_sleep i).trans hs
  simp [State.proceed, State.runAgents_lockup, hl, State.wakeUp_of_wakes hsleep h, State.awoken]

/-- Settles O50, by whether the machine wakes up. -/
theorem sleepLasts : Obligations.SleepLasts := by
  intro s cause deep hs hl hr
  have hs' : s.takeInput.2.sleep = .asleep cause deep := s.takeInput_sleep.trans hs
  have hl' : s.takeInput.2.lockup = false := s.takeInput_lockup.trans hl
  refine ⟨fun h => ⟨_, (step_eq_proceed hr).trans (proceed_of_not_wakes hs' hl' h), ?_⟩, fun h => ?_⟩
  · obtain ⟨p, l, c, e, hagents⟩ := s.takeInput.2.runAgents_eq s.takeInput.1
    rw [hagents]
    simp
  · have hready : s.ready = (s.takeInput.2.runAgents s.takeInput.1).awoken cause :=
      State.wakeUp_of_wakes ((State.runAgents_sleep _ _).trans hs') h
    exact ⟨hready, hready ▸ (step_eq_proceed hr).trans (proceed_of_wakes hs' hl' h)⟩

end Sys2Proof.Machine
end

section
/-!
SUPPORT. Word accesses to the registers of the NVIC and the System Control Block (10_state.md R56 to R73,
60_exceptions.md R464, R465, R503).
-/

namespace Sys2Proof.Machine

/-! ## A word access to a register -/

/-- The address of a register is word-aligned and in the Private Peripheral Bus region. -/
def RegisterAt (a : Word) (r : PpbReg) : Prop := aligned a 4 = true ∧ inPpb a = true ∧ ppbRegAt a = some r

theorem State.loadWord_register {s : State} {a : Word} {r : PpbReg} (h : RegisterAt a r) :
    s.loadWord a = .ok (s.readPpbReg r) := by
  obtain ⟨haligned, hppb, hr⟩ := h
  simp [State.loadWord, State.ppbRead, haligned, hppb, hr]

theorem State.storeWord_register {s : State} {a w : Word} {r : PpbReg} (h : RegisterAt a r) :
    s.storeWord a w = s.writePpbReg r w := by
  obtain ⟨haligned, hppb, hr⟩ := h
  simp [State.storeWord, State.ppbWrite, haligned, hppb, hr]

theorem registerAt_iser : RegisterAt 0xE000E100 .iser := ⟨rfl, rfl, rfl⟩
theorem registerAt_icer : RegisterAt 0xE000E180 .icer := ⟨rfl, rfl, rfl⟩
theorem registerAt_ispr : RegisterAt 0xE000E200 .ispr := ⟨rfl, rfl, rfl⟩
theorem registerAt_icpr : RegisterAt 0xE000E280 .icpr := ⟨rfl, rfl, rfl⟩
theorem registerAt_icsr : RegisterAt 0xE000ED04 .icsr := ⟨rfl, rfl, rfl⟩
theorem registerAt_aircr : RegisterAt 0xE000ED0C .aircr := ⟨rfl, rfl, rfl⟩
theorem registerAt_scr : RegisterAt 0xE000ED10 .scr := ⟨rfl, rfl, rfl⟩
theorem registerAt_shpr2 : RegisterAt 0xE000ED1C .shpr2 := ⟨rfl, rfl, rfl⟩
theorem registerAt_shpr3 : RegisterAt 0xE000ED20 .shpr3 := ⟨rfl, rfl, rfl⟩

/-- The eight IPR registers lie at rising word addresses (R60). -/
theorem registerAt_ipr : ∀ n : Fin 8, RegisterAt (0xE000E400 + BitVec.ofNat 32 (4 * n.val)) (.ipr n) := by
  unfold RegisterAt
  decide

/-! ## Enable and pending bits of the interrupts (R56 to R59, R464) -/

theorem State.irqPending_getLsbD (s : State) {n : Nat} (hn : n < 32) :
    s.irqPending.getLsbD n = s.isPending (16 + n) := by
  simp [State.irqPending, State.isPending, hn]

theorem State.isPending_withIrqPending (s : State) (p : BitVec 32) {n : Nat} (hn : n < 32) :
    (s.withIrqPending p).isPending (16 + n) = p.getLsbD n := by
  change (p ++ s.nvic.pending.extractLsb' 0 16).getLsbD (16 + n) = p.getLsbD n
  rw [BitVec.getLsbD_append, if_neg (by omega), Nat.add_sub_cancel_left]

/-- Settles O53: the two enable registers and the two pending registers. -/
theorem nvicSetAndClear : Obligations.NvicSetAndClear := by
  intro s w
  refine ⟨⟨_, State.storeWord_register registerAt_iser, fun n _ => ?_,
      State.loadWord_register registerAt_iser, rfl⟩,
    ⟨_, State.storeWord_register registerAt_icer, fun n hn => ?_,
      State.loadWord_register registerAt_icer, rfl⟩,
    ⟨_, _, State.storeWord_register registerAt_ispr, State.loadWord_register registerAt_ispr,
      fun n hn => ⟨State.irqPending_getLsbD _ hn, ?_⟩, rfl, rfl⟩,
    ⟨_, _, State.storeWord_register registerAt_icpr, State.loadWord_register registerAt_icpr,
      fun n hn => ⟨State.irqPending_getLsbD _ hn, ?_⟩, rfl, rfl⟩⟩
  · exact BitVec.getLsbD_or
  · simp [hn]
  · rw [State.isPending_withIrqPending _ _ hn, BitVec.getLsbD_or, s.irqPending_getLsbD hn]
  · rw [State.isPending_withIrqPending _ _ hn, BitVec.getLsbD_and, s.irqPending_getLsbD hn]
    simp [hn]

/-! ## Priority fields (R60, R61, R72, R73) -/

/-- Bits [7:6] of a byte. -/
theorem byte_and_192 : ∀ b : Byte, (b &&& 0xC0).toNat = b.toNat / 64 * 64 := by decide

theorem extractLsb'_byte_toNat (w : Word) (k : Nat) : (w.extractLsb' (8 * k) 8).toNat = w.toNat / 256 ^ k % 256 := by
  rw [BitVec.extractLsb'_toNat, Nat.shiftRight_eq_div_pow, Nat.pow_mul]

/-- Byte `k` of what a priority register keeps of a word, where all of the field's bits are implemented. -/
theorem priorityField_toNat (w : Word) {m : Word} {k : Nat} (hm : m.extractLsb' (8 * k) 8 = 0xC0) :
    ((w &&& m).extractLsb' (8 * k) 8).toNat = w.toNat / 256 ^ k % 256 / 64 * 64 := by
  rw [BitVec.extractLsb'_and, hm, byte_and_192, extractLsb'_byte_toNat]

/-- The same byte in what a load reads back. -/
theorem priorityField_read (w : Word) {m : Word} {k : Nat} (hm : m.extractLsb' (8 * k) 8 = 0xC0) :
    (w &&& m).toNat / 256 ^ k % 256 = w.toNat / 256 ^ k % 256 / 64 * 64 := by
  rw [← extractLsb'_byte_toNat, priorityField_toNat w hm]

/-- Settles O54, field by field; fields [7:6] of bytes 3 and 2 are bits [31:30] and [23:22] of the word. -/
theorem priorityRegisters : Obligations.PriorityRegisters := by
  intro s w
  have hw := w.isLt
  have byte3 : w.toNat / 256 ^ 3 % 256 / 64 * 64 = w.toNat / 2 ^ 30 * 64 := by omega
  have byte2 : w.toNat / 256 ^ 2 % 256 / 64 * 64 = w.toNat / 2 ^ 22 % 4 * 64 := by omega
  have top (v : Word) : v.toNat / 2 ^ 24 = v.toNat / 256 ^ 3 % 256 := by
    have := v.isLt
    omega
  refine ⟨fun n k hk => ⟨_, State.storeWord_register (registerAt_ipr n), ?_, ?_⟩,
    ⟨_, _, State.storeWord_register registerAt_shpr2, State.loadWord_register registerAt_shpr2, ?_, ?_⟩,
    ⟨_, _, State.storeWord_register registerAt_shpr3, State.loadWord_register registerAt_shpr3, ?_, ?_, ?_, ?_⟩⟩
  · have fields : ∀ k < 4, iprMask.extractLsb' (8 * k) 8 = 0xC0 := by decide
    rw [State.priority_irq _ n.isLt hk, ← priorityField_toNat w (fields k hk)]
    simp
  · rw [State.loadWord_register (registerAt_ipr n)]
    simp [State.readPpbReg, iprMask]
  · rw [top, priorityField_read w (k := 3) rfl, byte3]
  · rw [← byte3]
    exact congrArg Nat.cast (priorityField_toNat w (k := 3) rfl)
  · rw [top, priorityField_read w (k := 3) rfl, byte3]
  · rw [← byte2]
    exact priorityField_read w (k := 2) rfl
  · rw [← byte3]
    exact congrArg Nat.cast (priorityField_toNat w (k := 3) rfl)
  · rw [← byte2]
    exact congrArg Nat.cast (priorityField_toNat w (k := 2) rfl)

/-! ## ICSR (R67, R465) -/

theorem State.isPending_setPending (s : State) {e : Nat} (he : e < 48) (b : Bool) (k : Nat) :
    (s.setPending e b).isPending k = if k = e then b else s.isPending k := getLsbD_setBit _ he b k

/-- A pair of set and clear bits, not both written with 1 (R68). -/
theorem State.isPending_writePendPair (s : State) {e : Nat} (he : e < 48) {set clear : Bool}
    (h : ¬(set = true ∧ clear = true)) (k : Nat) :
    (s.writePendPair e set clear).isPending k =
      if k = e then set || s.isPending e && !clear else s.isPending k := by
  cases set <;> cases clear
  case true.true => exact absurd ⟨rfl, rfl⟩ h
  case false.false =>
    by_cases hk : k = e <;> simp [State.writePendPair, hk]
  case true.false => simp [State.writePendPair, s.isPending_setPending he]
  case false.true => simp [State.writePendPair, s.isPending_setPending he]

theorem State.writePendPair_active (s : State) (e : Nat) (set clear : Bool) :
    (s.writePendPair e set clear).nvic.active = s.nvic.active := by
  cases set <;> cases clear <;> rfl

/-- Settles O55: a write of ICSR is a write of its two pairs. -/
theorem icsrPendsAndClears : Obligations.IcsrPendsAndClears := by
  intro s w h14 h15
  have hbit (k : Nat) := (s.writePendPair 14 (w.getLsbD 28) (w.getLsbD 27)).isPending_writePendPair (by decide) h15 k
    (e := 15)
  have hbit' (k : Nat) := s.isPending_writePendPair (by decide) h14 k (e := 14)
  refine ⟨_, State.storeWord_register registerAt_icsr, ?_, ?_, fun e he14 he15 => ?_, ?_⟩
  · rw [hbit, if_neg (by decide), hbit', if_pos rfl]
  · rw [hbit, if_pos rfl, hbit', if_neg (by decide)]
  · rw [hbit, if_neg he15, hbit', if_neg he14]
  · rw [State.writePendPair_active, State.writePendPair_active]

end Sys2Proof.Machine
end

section
/-!
SUPPORT. What ICSR reads as, and the writes of AIRCR and SCR (10_state.md R67, R69, R70; 60_exceptions.md R465, R503).
-/

namespace Sys2Proof.Machine

/-! ## What ICSR reads as (R465) -/

theorem getLsbD_eq_of_div_mod {v : Word} {k : Nat} {b : Bool} (h : v.toNat / 2 ^ k % 2 = bitValue b) :
    v.getLsbD k = b := by
  rw [BitVec.getLsbD, Nat.testBit_eq_decide_div_mod_eq, h]
  cases b <;> rfl

theorem bitValue_le_one (b : Bool) : bitValue b ≤ 1 := by cases b <;> decide

/-- ICSR as a number: the bits and fields of R465 at their places. -/
theorem State.icsrValue_toNat (s : State) (svClr stClr : Bool) : (s.icsrValue svClr stClr).toNat =
    2 ^ 28 * bitValue (s.isPending 14) + 2 ^ 27 * bitValue svClr + 2 ^ 26 * bitValue (s.isPending 15)
      + 2 ^ 25 * bitValue stClr + 2 ^ 22 * bitValue (s.irqPending != 0) + 2 ^ 12 * (s.vectPending.getD 0 % 64)
      + s.ipsr.toNat := by
  simp only [State.icsrValue, toNat_append_eq, bitValue_eq_toNat, BitVec.toNat_ofBool, BitVec.toNat_ofNat]
  omega

theorem State.irqPending_ne_zero_iff {s : State} :
    (s.irqPending != 0) = true ↔ ∃ n : Nat, n < 32 ∧ s.isPending (16 + n) = true := by
  rw [bne_iff_ne]
  constructor
  · intro h
    by_contra hnone
    push Not at hnone
    refine h (BitVec.eq_of_getLsbD_eq fun n hn => ?_)
    rw [s.irqPending_getLsbD hn, Bool.eq_false_iff.2 (hnone n hn)]
    simp
  · rintro ⟨n, hn, hp⟩ h
    rw [← s.irqPending_getLsbD hn, h] at hp
    simp at hp

/-- VECTPENDING's exception is pending and enabled, and the most urgent of those that are (R416, R465). -/
theorem State.vectPending_eq_some {s : State} {e : Nat} (h : s.vectPending = some e) :
    e ∈ exceptionNumbers ∧ s.isPending e = true ∧ s.isEnabled e = true ∧
      ∀ f ∈ exceptionNumbers, s.isPending f = true → s.isEnabled f = true →
        s.priority e < s.priority f ∨ (s.priority e = s.priority f ∧ e ≤ f) := by
  obtain ⟨hmem, hmin⟩ := State.mostUrgent_eq_some (exceptionNumbers_sorted.filter _) h
  obtain ⟨hnum, hpe⟩ := List.mem_filter.1 hmem
  obtain ⟨hp, hen⟩ := Bool.and_eq_true_iff.1 hpe
  exact ⟨hnum, hp, hen, fun f hf hfp hfe => hmin f (List.mem_filter.2 ⟨hf, Bool.and_eq_true_iff.2 ⟨hfp, hfe⟩⟩)⟩

theorem State.vectPending_eq_none {s : State} (h : s.vectPending = none) :
    ∀ e ∈ exceptionNumbers, ¬(s.isPending e = true ∧ s.isEnabled e = true) := by
  intro e he hpe
  have hnil := State.mostUrgent_eq_none_iff.1 h
  exact List.filter_eq_nil_iff.1 hnil e he (Bool.and_eq_true_iff.2 hpe)

/-- The number that VECTPENDING shows: 0 for no exception, which is no exception number. -/
theorem State.vectPending_cases (s : State) :
    (s.vectPending.getD 0 = 0 ∧ s.vectPending = none) ∨
      ∃ e, s.vectPending.getD 0 = e ∧ s.vectPending = some e ∧ e ∈ exceptionNumbers ∧ 0 < e ∧ e < 48 := by
  cases h : s.vectPending with
  | none => exact .inl ⟨rfl, rfl⟩
  | some e =>
    have hnum := (State.vectPending_eq_some h).1
    have := mem_exceptionNumbers.1 hnum
    exact .inr ⟨e, rfl, rfl, hnum, by omega, by omega⟩

theorem State.loadWord_icsr (s : State) : s.loadWord 0xE000ED04 =
    .ok (s.icsrValue (Config.freeBit s.freeIndex) (Config.freeBit (s.freeIndex + 1)), s.afterDraw.afterDraw) :=
  State.loadWord_register registerAt_icsr

/-- Settles O56: the fields of the number that ICSR reads as. -/
theorem icsrReads : Obligations.IcsrReads := by
  intro s
  refine ⟨_, _, s.loadWord_icsr, ?_⟩
  have hv := s.icsrValue_toNat (Config.freeBit s.freeIndex) (Config.freeBit (s.freeIndex + 1))
  generalize s.icsrValue _ _ = v at hv
  have hsvClr := bitValue_le_one (Config.freeBit s.freeIndex)
  have hstClr := bitValue_le_one (Config.freeBit (s.freeIndex + 1))
  have h14 := bitValue_le_one (s.isPending 14)
  have h15 := bitValue_le_one (s.isPending 15)
  have hirq := bitValue_le_one (s.irqPending != 0)
  have hipsr := s.ipsr.isLt
  have hvect : v.toNat / 2 ^ 12 % 64 = s.vectPending.getD 0 := by
    have := s.vectPending_cases
    omega
  have h22 : v.getLsbD 22 = (s.irqPending != 0) := getLsbD_eq_of_div_mod (by omega)
  refine ⟨by omega, getLsbD_eq_of_div_mod (b := false) (hv ▸ ?_), getLsbD_eq_of_div_mod (by omega),
    getLsbD_eq_of_div_mod (by omega), h22 ▸ State.irqPending_ne_zero_iff, ?_⟩
  · change _ = 0
    omega
  · rw [hvect]
    rcases s.vectPending_cases with ⟨h0, hnone⟩ | ⟨e, hget, hsome, hnum, hpos, -⟩
    · refine ⟨.inl h0, fun _ => State.vectPending_eq_none hnone, fun e he hget => ?_⟩
      have := mem_exceptionNumbers.1 he
      omega
    · rw [hget]
      refine ⟨.inr hnum, fun h0 => by omega, ?_⟩
      rintro _ _ rfl
      exact (State.vectPending_eq_some hsome).2

/-! ## AIRCR (R69, R503) -/

/-- The key of AIRCR is the upper half of the word. -/
theorem extractLsb'_key_iff {w : Word} : w.extractLsb' 16 16 = 0x05FA#16 ↔ w.toNat / 65536 = 0x05FA := by
  have := w.isLt
  rw [BitVec.toNat_eq, BitVec.extractLsb'_toNat, Nat.shiftRight_eq_div_pow, BitVec.toNat_ofNat]
  omega

/-- A reset with readable words at addresses 0 and 4 (R500). -/
theorem warmReset_of_ordinary {s : State} (h0 : s.ordinary .read 0 4 = true) (h4 : s.ordinary .read 4 4 = true)
    (lines : BitVec 32) : s.warmReset lines =
      .next (((s.resetRegisters lines).setMainSp (s.mem.readWord 0)).interworkTo (s.mem.readWord 4)) := by
  have h0' : (s.resetRegisters lines).ordinary .read 0 4 = true := State.ordinary_of_memMap_eq (s := s) rfl h0
  have h4' : (s.resetRegisters lines).ordinary .read 4 4 = true := State.ordinary_of_memMap_eq (s := s) rfl h4
  simp only [State.warmReset, State.loadResetVector, State.loadWord_of_ordinary h0', State.loadWord_of_ordinary h4',
    Access.bind]
  rfl

/-- A reset that a program has asked for is the next step (R503). -/
theorem step_of_resetRequest {s : State} (h : s.scb.resetRequest = true) :
    step s = s.takeInput.2.warmReset s.takeInput.1.lines := by
  simp [step, State.cycle, h]

/-- SCR as a number: its three bits (R70). -/
theorem State.scrValue_toNat (s : State) : s.scrValue.toNat =
    16 * bitValue s.scb.sevOnPend + 4 * bitValue s.scb.sleepDeep + 2 * bitValue s.scb.sleepOnExit := by
  simp only [State.scrValue, toNat_append_eq, bitValue_eq_toNat, BitVec.toNat_ofBool, BitVec.toNat_ofNat]
  omega

theorem State.scrValue_bits (s : State) : s.scrValue.getLsbD 4 = s.scb.sevOnPend ∧
    s.scrValue.getLsbD 2 = s.scb.sleepDeep ∧ s.scrValue.getLsbD 1 = s.scb.sleepOnExit := by
  have hv := s.scrValue_toNat
  have hpend := bitValue_le_one s.scb.sevOnPend
  have hdeep := bitValue_le_one s.scb.sleepDeep
  have hexit := bitValue_le_one s.scb.sleepOnExit
  exact ⟨getLsbD_eq_of_div_mod (by omega), getLsbD_eq_of_div_mod (by omega), getLsbD_eq_of_div_mod (by omega)⟩

/-- Settles O57: AIRCR by its key and bits, then SCR. -/
theorem aircrKey : Obligations.AircrKey := by
  intro s w
  have write : s.storeWord 0xE000ED0C w = s.writePpbReg .aircr w := State.storeWord_register registerAt_aircr
  simp only [write, State.writePpbReg, extractLsb'_key_iff]
  refine ⟨fun hkey => if_neg hkey, fun hkey h1 => ?_, fun hkey h1 h2 h0 h4 => ?_,
    ⟨_, _, State.storeWord_register registerAt_scr, rfl, State.loadWord_register registerAt_scr,
      State.scrValue_bits _⟩⟩
  · rw [if_pos hkey, if_pos h1]
  · rw [if_pos hkey, h1, h2, Bool.or_true]
    refine ⟨_, _, rfl, (step_of_resetRequest rfl).trans (warmReset_of_ordinary ?_ ?_ _), ?_, ?_, rfl⟩
    · exact State.ordinary_of_memMap_eq (State.takeInput_memMap _) h0
    · exact State.ordinary_of_memMap_eq (State.takeInput_memMap _) h4
    · rw [State.interworkTo_pc, clearBit0_toNat, State.readWord_toNat]
      exact congrArg (· / 2 * 2) (State.number_congr fun _ _ => by rw [State.takeInput_mem])
    · rw [State.interworkTo_msp, State.setMainSp_msp, alignWord_toNat, State.readWord_toNat]
      exact congrArg (· / 4 * 4) (State.number_congr fun _ _ => by rw [State.takeInput_mem])

end Sys2Proof.Machine
end

section
/-!
SUPPORT. One access of a word, a halfword or a byte: what it reads or stores when memory answers, and when it raises
HardFault (20_memory.md R131 to R141).
-/

namespace Sys2Proof.Machine

/-! ## Addresses (40_memory_access.md R232 to R239) -/

theorem immediate_two {n : Nat} (imm : BitVec n) : immediate imm 2 = BitVec.ofNat 32 (imm.toNat * 2) := by
  apply BitVec.eq_of_toNat_eq
  simp [immediate, BitVec.toNat_mul]

theorem immediate_one {n : Nat} (imm : BitVec n) : immediate imm 1 = BitVec.ofNat 32 imm.toNat := by
  apply BitVec.eq_of_toNat_eq
  simp [immediate]

theorem State.immAddress_four (s : State) (rn : LowReg) (imm5 : BitVec 5) :
    s.immAddress rn imm5 4 = s.readLow rn + BitVec.ofNat 32 (imm5.toNat * 4) :=
  congrArg (s.readLow rn + ·) (immediate_four imm5)

theorem State.immAddress_two (s : State) (rn : LowReg) (imm5 : BitVec 5) :
    s.immAddress rn imm5 2 = s.readLow rn + BitVec.ofNat 32 (imm5.toNat * 2) :=
  congrArg (s.readLow rn + ·) (immediate_two imm5)

theorem State.immAddress_one (s : State) (rn : LowReg) (imm5 : BitVec 5) :
    s.immAddress rn imm5 1 = s.readLow rn + BitVec.ofNat 32 imm5.toNat :=
  congrArg (s.readLow rn + ·) (immediate_one imm5)

theorem State.spAddress_eq (s : State) (imm8 : BitVec 8) :
    s.spAddress imm8 = s.sp + BitVec.ofNat 32 (imm8.toNat * 4) :=
  congrArg (s.sp + ·) (immediate_four imm8)

/-! ## Alignment (20_memory.md R135) -/

theorem aligned_iff {a : Word} {n : Nat} : aligned a n = true ↔ a.toNat % n = 0 := by simp [aligned]

theorem aligned_eq_false_iff {a : Word} {n : Nat} : aligned a n = false ↔ a.toNat % n ≠ 0 := by simp [aligned]

theorem aligned_one (a : Word) : aligned a 1 = true := aligned_iff.2 (Nat.mod_one _)

/-! ## Numbers of one, two and four bytes -/

theorem State.readHalfword_toNat (s : State) (a : Word) : (s.mem.readHalfword a).toNat = s.number a 2 := by
  simp only [Memory.readHalfword, toNat_append_eq, State.number]
  omega

theorem State.readByte_toNat (s : State) (a : Word) : (s.mem.readByte (byteAddress a 0)).toNat = s.number a 1 := by
  simp [State.number]

theorem State.readWord_eq_ofNat (s : State) (a : Word) : s.mem.readWord a = BitVec.ofNat 32 (s.number a 4) := by
  rw [← s.readWord_toNat, BitVec.ofNat_toNat, BitVec.setWidth_eq]

/-- A zero-extended number. -/
theorem setWidth_eq_ofInt {w : Nat} (x : BitVec w) : x.setWidth 32 = BitVec.ofInt 32 (x.toNat : Int) := by
  rw [BitVec.ofInt_natCast, BitVec.ofNat_toNat]

/-- A sign-extended number. -/
theorem signExtend_eq_ofInt {w : Nat} (x : BitVec w) : x.signExtend 32 =
    BitVec.ofInt 32 (if 2 ^ w ≤ 2 * x.toNat then (x.toNat : Int) - 2 ^ w else x.toNat) := by
  rw [BitVec.signExtend, BitVec.toInt_eq_toNat_cond]
  congr 1
  by_cases h : 2 ^ w ≤ 2 * x.toNat
  · rw [if_pos h, if_neg (by omega), Nat.cast_pow, Nat.cast_ofNat]
  · rw [if_neg h, if_pos (by omega)]

/-! ## Accesses that memory answers -/

theorem State.loadHalfword_of_ordinary {s : State} {a : Word} (h : s.ordinary .read a 2 = true) :
    s.loadHalfword a = .ok (s.mem.readHalfword a) := by
  obtain ⟨ha, hp, ht⟩ := State.ordinary_iff.1 h
  simp [State.loadHalfword, State.access, ha, hp, ht]

theorem State.loadByte_of_ordinary {s : State} {a : Word} (h : s.ordinary .read a 1 = true) :
    s.loadByte a = .ok (s.mem.readByte (byteAddress a 0)) := by
  obtain ⟨-, hp, ht⟩ := State.ordinary_iff.1 h
  simp [State.loadByte, State.access, hp, ht]

theorem State.storeHalfword_of_ordinary {s : State} {a : Word} (v : Halfword) (h : s.ordinary .write a 2 = true) :
    s.storeHalfword a v = .ok (s.storeTo (s.mem.writeHalfword a v) a 2) := by
  obtain ⟨ha, hp, ht⟩ := State.ordinary_iff.1 h
  simp [State.storeHalfword, State.access, ha, hp, ht]

theorem State.storeByte_of_ordinary {s : State} {a : Word} (v : Byte) (h : s.ordinary .write a 1 = true) :
    s.storeByte a v = .ok (s.storeTo (s.mem.writeByte (byteAddress a 0) v) a 1) := by
  obtain ⟨-, hp, ht⟩ := State.ordinary_iff.1 h
  simp [State.storeByte, State.access, hp, ht]

/-! ## Accesses that raise HardFault -/

/-- The checks of a word access, which the Private Peripheral Bus answers by `x`. -/
theorem State.wordChecks_of_accessFaults {α : Type} {s : State} {kind : AccessKind} {a : Word} (x : Access α)
    (f : Unit → α) (h : s.accessFaults kind a 4) :
    ∃ c, (if !aligned a 4 then .hardFault .unaligned else if inPpb a then x else s.access kind a 4 f : Access α) =
      .hardFault c := by
  rcases h with ha | ⟨-, hn⟩ | ⟨hp, ht⟩
  · exact ⟨.unaligned, by simp [ha]⟩
  · exact absurd rfl hn
  · cases ha : aligned a 4 <;> simp [State.access, hp, ht]

theorem State.loadWord_of_accessFaults {s : State} {a : Word} (h : s.accessFaults .read a 4) :
    ∃ c, s.loadWord a = .hardFault c := State.wordChecks_of_accessFaults _ _ h

theorem State.storeWord_of_accessFaults {s : State} {a : Word} (v : Word) (h : s.accessFaults .write a 4) :
    ∃ c, s.storeWord a v = .hardFault c := State.wordChecks_of_accessFaults _ _ h

/-- The checks of a halfword or byte access, which the Private Peripheral Bus does not take (R141). -/
theorem State.narrowChecks_of_accessFaults {α : Type} {s : State} {kind : AccessKind} {a : Word} {n : Nat}
    (f : Unit → α) (h : s.accessFaults kind a n) :
    ∃ c, (if !aligned a n then .hardFault .unaligned
      else if inPpb a then .hardFault .busErrorData else s.access kind a n f : Access α) = .hardFault c := by
  rcases h with ha | ⟨hp, -⟩ | ⟨hp, ht⟩
  · exact ⟨.unaligned, by simp [ha]⟩
  · cases ha : aligned a n <;> simp [hp]
  · cases ha : aligned a n <;> simp [State.access, hp, ht]

theorem State.loadHalfword_of_accessFaults {s : State} {a : Word} (h : s.accessFaults .read a 2) :
    ∃ c, s.loadHalfword a = .hardFault c := State.narrowChecks_of_accessFaults _ h

theorem State.storeHalfword_of_accessFaults {s : State} {a : Word} (v : Halfword) (h : s.accessFaults .write a 2) :
    ∃ c, s.storeHalfword a v = .hardFault c := State.narrowChecks_of_accessFaults _ h

theorem State.loadByte_of_accessFaults {s : State} {a : Word} (h : s.accessFaults .read a 1) :
    ∃ c, s.loadByte a = .hardFault c := by
  simpa [State.loadByte, aligned_one] using
    State.narrowChecks_of_accessFaults (fun _ => s.mem.readByte (byteAddress a 0)) h

theorem State.storeByte_of_accessFaults {s : State} {a : Word} (v : Byte) (h : s.accessFaults .write a 1) :
    ∃ c, s.storeByte a v = .hardFault c := by
  simpa [State.storeByte, aligned_one] using
    State.narrowChecks_of_accessFaults (fun _ => s.storeTo (s.mem.writeByte (byteAddress a 0) v) a 1) h

/-- An instruction whose access raises HardFault. -/
theorem Access.conclude_of_hardFault {α : Type} {x : Access α} (s : State) (k : α → Result)
    (h : ∃ c, x = .hardFault c) : ∃ c, x.conclude s k = raiseHardFault c s s := by
  obtain ⟨c, rfl⟩ := h
  exact ⟨c, rfl⟩

/-- Every load or store whose access faults raises HardFault, and nothing else (R135, R138, R141). -/
theorem SingleAccess.exec_eq_raiseHardFault {s : State} {i : Instr} {kind : AccessKind} {a : Word} {n : Nat}
    (h : SingleAccess s i kind a n) (hf : s.accessFaults kind a n) : ∃ c, exec i s = raiseHardFault c s s := by
  have loadWord {a rt} (hf : s.accessFaults .read a 4) : ∃ c, loadWordInto rt a s = raiseHardFault c s s :=
    Access.conclude_of_hardFault s _ (State.loadWord_of_accessFaults hf)
  have storeWord {a rt} (hf : s.accessFaults .write a 4) : ∃ c, storeWordFrom rt a s = raiseHardFault c s s :=
    Access.conclude_of_hardFault s _ (State.storeWord_of_accessFaults _ hf)
  have loadHalfword {f a rt} (hf : s.accessFaults .read a 2) : ∃ c, loadHalfwordInto f rt a s = raiseHardFault c s s :=
    Access.conclude_of_hardFault s _ (State.loadHalfword_of_accessFaults hf)
  have storeHalfword {a rt} (hf : s.accessFaults .write a 2) : ∃ c, storeHalfwordFrom rt a s = raiseHardFault c s s :=
    Access.conclude_of_hardFault s _ (State.storeHalfword_of_accessFaults _ hf)
  have loadByte {f a rt} (hf : s.accessFaults .read a 1) : ∃ c, loadByteInto f rt a s = raiseHardFault c s s :=
    Access.conclude_of_hardFault s _ (State.loadByte_of_accessFaults hf)
  have storeByte {a rt} (hf : s.accessFaults .write a 1) : ∃ c, storeByteFrom rt a s = raiseHardFault c s s :=
    Access.conclude_of_hardFault s _ (State.storeByte_of_accessFaults _ hf)
  cases h with
  | ldrImm => exact loadWord (s.immAddress_four _ _ ▸ hf)
  | strImm => exact storeWord (s.immAddress_four _ _ ▸ hf)
  | ldrhImm => exact loadHalfword (s.immAddress_two _ _ ▸ hf)
  | strhImm => exact storeHalfword (s.immAddress_two _ _ ▸ hf)
  | ldrbImm => exact loadByte (s.immAddress_one _ _ ▸ hf)
  | strbImm => exact storeByte (s.immAddress_one _ _ ▸ hf)
  | ldrSp => exact loadWord (s.spAddress_eq _ ▸ hf)
  | strSp => exact storeWord (s.spAddress_eq _ ▸ hf)
  | ldrLit => exact loadWord (s.pcAddress_eq _ ▸ hf)
  | ldrReg => exact loadWord hf
  | strReg => exact storeWord hf
  | ldrhReg | ldrshReg => exact loadHalfword hf
  | strhReg => exact storeHalfword hf
  | ldrbReg | ldrsbReg => exact loadByte hf
  | strbReg => exact storeByte hf

end Sys2Proof.Machine
end

section
/-!
SUPPORT. The single loads and stores of the statements (40_memory_access.md R232 to R248).
-/

namespace Sys2Proof.Machine

/-! ## Registers of the Private Peripheral Bus (20_memory.md R142) -/

/-- One entry of a table of registers. -/
theorem of_ite_some_eq_some {α : Type} {p : Prop} [Decidable p] {x y : α} {o : Option α}
    (h : (if p then some x else o) = some y) : (p ∧ x = y) ∨ o = some y := by
  by_cases hp : p
  · rw [if_pos hp] at h
    exact .inl ⟨hp, Option.some.inj h⟩
  · rw [if_neg hp] at h
    exact .inr h

theorem ppbRegAt_eq_systCsr {a : Word} (h : ppbRegAt a = some .systCsr) : a = 0xE000E010 := by
  obtain ⟨ha, -⟩ | h := of_ite_some_eq_some h
  · exact ha
  · iterate 15
      obtain ⟨-, hr⟩ | h := of_ite_some_eq_some h
      · cases hr
    cases h

theorem ppbRegAt_eq_aircr {a : Word} (h : ppbRegAt a = some .aircr) : a = 0xE000ED0C := by
  iterate 11
    obtain ⟨-, hr⟩ | h := of_ite_some_eq_some h
    · cases hr
  obtain ⟨ha, -⟩ | h := of_ite_some_eq_some h
  · exact ha
  · iterate 4
      obtain ⟨-, hr⟩ | h := of_ite_some_eq_some h
      · cases hr
    cases h

theorem State.loadWord_of_inPpb {s : State} {a : Word} (ha : aligned a 4 = true) (hp : inPpb a = true) :
    s.loadWord a = .ok (s.ppbRead a) := by
  simp [State.loadWord, ha, hp]

theorem State.storeWord_of_inPpb {s : State} {a : Word} (v : Word) (ha : aligned a 4 = true) (hp : inPpb a = true) :
    s.storeWord a v = s.ppbWrite a v := by
  simp [State.storeWord, ha, hp]

/-- A read of the Private Peripheral Bus draws open values and changes the timer, by SYST_CSR only (R471). -/
theorem State.ppbRead_frame (s : State) (a : Word) :
    (s.ppbRead a).2 = { s with systick := (s.ppbRead a).2.systick, freeIndex := (s.ppbRead a).2.freeIndex } ∧
      (a ≠ 0xE000E010 → (s.ppbRead a).2.systick = s.systick) ∧
      (a = 0xE000E010 → (s.ppbRead a).2.systick = { s.systick with countFlag := false }) := by
  refine ⟨?_, fun ha => ?_, fun ha => ?_⟩
  · unfold State.ppbRead
    split
    · rename_i r _
      cases r <;> rfl
    · rfl
  · unfold State.ppbRead
    split
    · rename_i r hr
      cases r with
      | systCsr => exact absurd (ppbRegAt_eq_systCsr hr) ha
      | _ => rfl
    · rfl
  · subst ha
    rfl

/-- What a write of the Private Peripheral Bus may change. -/
def PeripheralsOnly (s u : State) : Prop :=
  u = { s with nvic := u.nvic, scb := u.scb, systick := u.systick, event := u.event, freeIndex := u.freeIndex }

theorem PeripheralsOnly.trans {s t u : State} (h : PeripheralsOnly s t) (h' : PeripheralsOnly t u) :
    PeripheralsOnly s u := by
  unfold PeripheralsOnly at *
  rw [h', h]

theorem peripheralsOnly_writePendPair (s : State) (e : Nat) (b c : Bool) :
    PeripheralsOnly s (s.writePendPair e b c) := by
  cases b <;> cases c <;> rfl

/-- A write of a register answers, but for a write of 1 to VECTCLRACTIVE with AIRCR's key (R69). -/
theorem State.writePpbReg_eq {s : State} {r : PpbReg} {w : Word}
    (h : r = .aircr → ¬(w.extractLsb' 16 16 = 0x05FA#16 ∧ w.getLsbD 1 = true)) :
    ∃ u, s.writePpbReg r w = .ok u ∧ PeripheralsOnly s u := by
  cases r with
  | icsr =>
    exact ⟨_, rfl, (peripheralsOnly_writePendPair s 14 _ _).trans (peripheralsOnly_writePendPair _ 15 _ _)⟩
  | aircr =>
    by_cases hk : w.extractLsb' 16 16 = 0x05FA#16
    · have h1 : w.getLsbD 1 = false := by simpa using fun h1 => h rfl ⟨hk, h1⟩
      exact ⟨_, (if_pos hk).trans (if_neg (by rw [h1]; decide)), rfl⟩
    · exact ⟨s, if_neg hk, rfl⟩
  | _ => exact ⟨_, rfl, rfl⟩

theorem State.ppbWrite_eq {s : State} {a w : Word}
    (h : ¬(a = 0xE000ED0C ∧ w.toNat / 65536 = 0x05FA ∧ w.getLsbD 1 = true)) :
    ∃ u, s.ppbWrite a w = .ok u ∧ PeripheralsOnly s u := by
  unfold State.ppbWrite
  split
  · rename_i r hr
    refine State.writePpbReg_eq fun he => ?_
    subst he
    rw [extractLsb'_key_iff]
    exact fun hk => h ⟨ppbRegAt_eq_aircr hr, hk⟩
  · exact ⟨s, rfl, rfl⟩

/-- The write that stops by name (R69). -/
theorem State.storeWord_vectClrActive {s : State} {w : Word} (hk : w.toNat / 65536 = 0x05FA) (h1 : w.getLsbD 1 = true) :
    s.storeWord 0xE000ED0C w = .fault .vectClrActive := by
  rw [State.storeWord_register registerAt_aircr, State.writePpbReg, if_pos (extractLsb'_key_iff.2 hk), if_pos h1]

/-! ## Loads -/

/-- Settles O18: the load of a word into a register, from memory and from the Private Peripheral Bus. -/
theorem wordLoads : Obligations.WordLoads := by
  intro s i rt a hi
  have hx : exec i s = loadWordInto rt a s := by
    rcases hi with ⟨rn, imm5, rfl, rfl⟩ | ⟨imm8, rfl, rfl⟩ | ⟨rn, rm, rfl, rfl⟩ | ⟨imm8, rfl, rfl⟩
    · rw [← s.immAddress_four]; rfl
    · rw [← s.spAddress_eq]; rfl
    · rfl
    · rw [← s.pcAddress_eq]; rfl
  rw [hx]
  refine ⟨fun ho => ?_, fun ha hp => ?_⟩
  · rw [← s.readWord_eq_ofNat, loadWordInto, State.loadWord_of_ordinary ho]
    exact ⟨_, rfl, rfl, writesLow_advance s rt _⟩
  · have hl := State.loadWord_of_inPpb (s := s) (aligned_iff.2 ha) hp
    obtain ⟨hu, hne, heq⟩ := s.ppbRead_frame a
    rw [loadWordInto, hl]
    refine ⟨_, _, _, rfl, rfl, ?_, writesLow_advance _ rt _, hu, hne, heq⟩
    exact (congrArg State.apsr hu :)

theorem loadHalfwordInto_of_ordinary {s : State} {a : Word} (f : Halfword → Word) (rt : LowReg)
    (h : s.ordinary .read a 2 = true) :
    ∃ t, loadHalfwordInto f rt a s = .next t ∧ t.apsr = s.apsr ∧ WritesLow s t rt (f (s.mem.readHalfword a)) := by
  rw [loadHalfwordInto, State.loadHalfword_of_ordinary h]
  exact ⟨_, rfl, rfl, writesLow_advance s rt _⟩

theorem loadByteInto_of_ordinary {s : State} {a : Word} (f : Byte → Word) (rt : LowReg)
    (h : s.ordinary .read a 1 = true) :
    ∃ t, loadByteInto f rt a s = .next t ∧ t.apsr = s.apsr ∧
      WritesLow s t rt (f (s.mem.readByte (byteAddress a 0))) := by
  rw [loadByteInto, State.loadByte_of_ordinary h]
  exact ⟨_, rfl, rfl, writesLow_advance s rt _⟩

/-- How the narrow loads widen a value of `n` bytes that is the number `k`: by its sign, or by zeros. -/
def widened (signed : Bool) (n k : Nat) : Word :=
  BitVec.ofInt 32 (if signed = true ∧ 256 ^ n ≤ 2 * k then (k : Int) - 256 ^ n else k)

theorem State.halfword_setWidth (s : State) (a : Word) :
    (s.mem.readHalfword a).setWidth 32 = widened false 2 (s.number a 2) := by
  simp [setWidth_eq_ofInt, State.readHalfword_toNat, widened]

theorem State.halfword_signExtend (s : State) (a : Word) :
    (s.mem.readHalfword a).signExtend 32 = widened true 2 (s.number a 2) := by
  simp [signExtend_eq_ofInt, State.readHalfword_toNat, widened]

theorem State.byte_setWidth (s : State) (a : Word) :
    (s.mem.readByte (byteAddress a 0)).setWidth 32 = widened false 1 (s.number a 1) := by
  simp [setWidth_eq_ofInt, State.readByte_toNat, widened]

theorem State.byte_signExtend (s : State) (a : Word) :
    (s.mem.readByte (byteAddress a 0)).signExtend 32 = widened true 1 (s.number a 1) := by
  simp [signExtend_eq_ofInt, State.readByte_toNat, widened]

/-- Settles O19: the loads of a halfword and of a byte, each widened in one of two ways. -/
theorem narrowLoads : Obligations.NarrowLoads := by
  intro s i rt a n signed hi ho
  change ∃ t, exec i s = .next t ∧ t.apsr = s.apsr ∧ WritesLow s t rt (widened signed n (s.number a n))
  rcases hi with ⟨rn, imm5, rfl, rfl, rfl, rfl⟩ | ⟨rn, imm5, rfl, rfl, rfl, rfl⟩ | ⟨rn, rm, rfl, rfl, rfl, rfl⟩ |
    ⟨rn, rm, rfl, rfl, rfl, rfl⟩ | ⟨rn, rm, rfl, rfl, rfl, rfl⟩ | ⟨rn, rm, rfl, rfl, rfl, rfl⟩
  · rw [← s.immAddress_one] at ho ⊢
    rw [← s.byte_setWidth]
    exact loadByteInto_of_ordinary _ rt ho
  · rw [← s.immAddress_two] at ho ⊢
    rw [← s.halfword_setWidth]
    exact loadHalfwordInto_of_ordinary _ rt ho
  · rw [← s.byte_setWidth]
    exact loadByteInto_of_ordinary _ rt ho
  · rw [← s.halfword_setWidth]
    exact loadHalfwordInto_of_ordinary _ rt ho
  · rw [← s.byte_signExtend]
    exact loadByteInto_of_ordinary _ rt ho
  · rw [← s.halfword_signExtend]
    exact loadHalfwordInto_of_ordinary _ rt ho

/-! ## Stores -/

/-- A store that goes on to the next instruction. -/
theorem keepsSystem_storeTo (s : State) (m : Memory) (a : Word) (n : Nat) :
    KeepsSystem s ((s.storeTo m a n).advance 2) := by
  constructor <;> rfl

theorem keepsRegisters_storeTo (s : State) (m : Memory) (a : Word) (n : Nat) :
    KeepsRegisters s ((s.storeTo m a n).advance 2) [] := .of_eq [] rfl rfl rfl rfl rfl rfl

theorem State.number_storeTo_halfword {s : State} (h : s.mem.wf = true) (a : Word) (v : Halfword) :
    (s.storeTo (s.mem.writeHalfword a v) a 2).number a 2 = v.toNat := by
  have ne : byteAddress a 1 ≠ byteAddress a 0 := fun e => absurd (byteAddress_inj (by omega) (by omega) e) (by decide)
  have := v.isLt
  simp [State.number, Memory.readByte_writeHalfword h, ne, Nat.shiftRight_eq_div_pow]
  omega

theorem State.number_storeTo_byte {s : State} (h : s.mem.wf = true) (a : Word) (v : Byte) :
    (s.storeTo (s.mem.writeByte (byteAddress a 0) v) a 1).number a 1 = v.toNat := by
  simp [State.number, Memory.readByte_writeByte h]

/-- A word store changes no byte outside its own four. -/
theorem keepsMemoryOutside_writeWord {s : State} (h : s.mem.wf = true) (a v : Word) :
    KeepsMemoryOutside s (s.storeTo (s.mem.writeWord a v) a 4) a 4 := by
  intro k hk
  simp [Memory.readByte_writeWord h, hk 0, hk 1, hk 2, hk 3]

/-- Settles O20: a word store to memory, to the Private Peripheral Bus, and the write that stops. -/
theorem wordStores : Obligations.WordStores := by
  intro s i rt a hi
  have hx : exec i s = storeWordFrom rt a s := by
    rcases hi with ⟨rn, imm5, rfl, rfl⟩ | ⟨imm8, rfl, rfl⟩ | ⟨rn, rm, rfl, rfl⟩
    · rw [← s.immAddress_four]; rfl
    · rw [← s.spAddress_eq]; rfl
    · rfl
  rw [hx]
  refine ⟨fun hm ho => ?_, fun ha hp hs => ?_, fun ⟨ha, hk, h1⟩ => ?_⟩
  · rw [storeWordFrom, State.storeWord_of_ordinary _ ho]
    exact ⟨_, rfl, rfl, rfl, State.number_storeTo hm a _, keepsRegisters_storeTo s _ a 4, keepsSystem_storeTo s _ a 4,
      keepsMemoryOutside_writeWord hm a _⟩
  · obtain ⟨u, hu, hframe⟩ := State.ppbWrite_eq (s := s) hs
    have hst := (State.storeWord_of_inPpb (s.readLow rt) (aligned_iff.2 ha) hp).trans hu
    have hpc : u.pc = s.pc := by rw [hframe]
    refine ⟨u, hst, ?_, hframe⟩
    rw [storeWordFrom, hst, ← hpc]
    rfl
  · subst ha
    rw [storeWordFrom, State.storeWord_vectClrActive hk h1]
    rfl

/-- Settles O21: the stores of a byte and of a halfword. -/
theorem narrowStores : Obligations.NarrowStores := by
  intro s i rt a n hm hi ho
  have byte {a : Word} (ho : s.ordinary .write a 1 = true) : ∃ t, storeByteFrom rt a s = .next t ∧ t.pc = s.pc + 2 ∧
      t.apsr = s.apsr ∧ t.number a 1 = (s.readLow rt).toNat % 256 ^ 1 ∧ KeepsRegisters s t [] ∧ KeepsSystem s t ∧
      KeepsMemoryOutside s t a 1 := by
    rw [storeByteFrom, State.storeByte_of_ordinary _ ho]
    refine ⟨_, rfl, rfl, rfl, (State.number_storeTo_byte hm a _).trans (by simp), keepsRegisters_storeTo s _ a 1,
      keepsSystem_storeTo s _ a 1, fun k hk => ?_⟩
    simp [Memory.readByte_writeByte hm, hk 0]
  have halfword {a : Word} (ho : s.ordinary .write a 2 = true) : ∃ t, storeHalfwordFrom rt a s = .next t ∧
      t.pc = s.pc + 2 ∧ t.apsr = s.apsr ∧ t.number a 2 = (s.readLow rt).toNat % 256 ^ 2 ∧ KeepsRegisters s t [] ∧
      KeepsSystem s t ∧ KeepsMemoryOutside s t a 2 := by
    rw [storeHalfwordFrom, State.storeHalfword_of_ordinary _ ho]
    refine ⟨_, rfl, rfl, rfl, (State.number_storeTo_halfword hm a _).trans (by simp), keepsRegisters_storeTo s _ a 2,
      keepsSystem_storeTo s _ a 2, fun k hk => ?_⟩
    simp [Memory.readByte_writeHalfword hm, hk 0, hk 1]
  rcases hi with ⟨rn, imm5, rfl, rfl, rfl⟩ | ⟨rn, imm5, rfl, rfl, rfl⟩ | ⟨rn, rm, rfl, rfl, rfl⟩ |
    ⟨rn, rm, rfl, rfl, rfl⟩
  · rw [← s.immAddress_one] at ho ⊢
    exact byte ho
  · rw [← s.immAddress_two] at ho ⊢
    exact halfword ho
  · exact byte ho
  · exact halfword ho

/-! ## A word written and read back -/

/-- The Private Peripheral Bus begins and ends at a word boundary (R152). -/
theorem inPpb_iff {a : Word} : inPpb a = true ↔ 0xE0000000 ≤ a.toNat ∧ a.toNat < 0xE0100000 := by
  simp only [inPpb, addressRegion, beq_iff_eq, BitVec.lt_def]
  split_ifs <;> simp_all <;> omega

theorem add_toNat_of_aligned {a : Word} (ha : aligned a 4 = true) {k : Nat} (hk : k < 4) :
    (a + BitVec.ofNat 32 k).toNat = a.toNat + k := by
  have := aligned_iff.1 ha
  rw [BitVec.toNat_add, BitVec.toNat_ofNat]
  omega

theorem byteAddress_add (a : Word) (k i : Nat) : byteAddress (a + BitVec.ofNat 32 k) i = byteAddress a (k + i) := by
  simp only [byteAddress, BitVec.ofNat_add, BitVec.add_assoc]

theorem targetOf_eq_memory_iff {map : List Region} {kind : AccessKind} {a : Word} {n : Nat} :
    targetOf map kind a n = .memory ↔ ∀ i < n, targetOfByte map kind (byteAddress a i) = .memory := by
  simp only [targetOf]
  split_ifs <;> simp_all

/-- A part of a word that memory answers is answered by memory. -/
theorem State.ordinary_part {s : State} {kind : AccessKind} {a : Word} (h : s.ordinary kind a 4 = true) {k n : Nat}
    (hn : 0 < n) (hk : k + n ≤ 4) (hd : k % n = 0) (hd' : 4 % n = 0) :
    s.ordinary kind (a + BitVec.ofNat 32 k) n = true := by
  obtain ⟨ha, hp, ht⟩ := State.ordinary_iff.1 h
  have hadd := add_toNat_of_aligned ha (k := k) (by omega)
  refine State.ordinary_iff.2 ⟨?_, ?_, targetOf_eq_memory_iff.2 fun i hi => ?_⟩
  · rw [aligned_iff, hadd, Nat.add_mod, hd]
    have := Nat.mod_mod_of_dvd a.toNat (Nat.dvd_of_mod_eq_zero hd')
    rw [aligned_iff.1 ha] at this
    simp [← this]
  · rw [← Bool.not_eq_true, inPpb_iff, hadd]
    rw [← Bool.not_eq_true, inPpb_iff] at hp
    have := aligned_iff.1 ha
    omega
  · rw [byteAddress_add]
    exact targetOf_eq_memory_iff.1 ht (k + i) (by omega)

/-- Byte `k` of a word in memory. -/
theorem State.byte_of_number (s : State) (a : Word) {k : Nat} (hk : k < 4) :
    s.number (a + BitVec.ofNat 32 k) 1 = s.number a 4 / 256 ^ k % 256 := by
  simp only [State.number, byteAddress_add]
  have h (j : Nat) := (s.mem.readByte (byteAddress a j)).isLt
  have := h 0; have := h 1; have := h 2; have := h 3
  obtain rfl | rfl | rfl | rfl : k = 0 ∨ k = 1 ∨ k = 2 ∨ k = 3 := by omega
  all_goals simp only [Nat.add_zero]; omega

/-- Halfword `k` of a word in memory. -/
theorem State.halfword_of_number (s : State) (a : Word) {k : Nat} (hk : k < 2) :
    s.number (a + BitVec.ofNat 32 (2 * k)) 2 = s.number a 4 / 65536 ^ k % 65536 := by
  simp only [State.number, byteAddress_add]
  have h (j : Nat) := (s.mem.readByte (byteAddress a j)).isLt
  have := h 0; have := h 1; have := h 2; have := h 3
  obtain rfl | rfl : k = 0 ∨ k = 1 := by omega
  all_goals simp only [Nat.mul_zero, Nat.mul_one, Nat.reduceAdd]; omega

/-- Settles O60: every part of the stored word is answered by memory, which holds the word's number. -/
theorem storeThenLoad : Obligations.StoreThenLoad := by
  intro s a v hm hw hr
  have hv : (s.storeTo (s.mem.writeWord a v) a 4).number a 4 = v.toNat := State.number_storeTo hm a v
  refine ⟨s.storeTo (s.mem.writeWord a v) a 4, State.storeWord_of_ordinary v hw, ?_, fun k hk => ?_, fun k hk => ?_⟩
  all_goals
    have hr' : (s.storeTo (s.mem.writeWord a v) a 4).ordinary .read a 4 = true := State.ordinary_of_memMap_eq rfl hr
  · rw [State.loadWord_of_ordinary hr', State.readWord_eq_ofNat, hv, BitVec.ofNat_toNat, BitVec.setWidth_eq]
  · refine ⟨_, State.loadHalfword_of_ordinary (State.ordinary_part hr' (by omega) (by omega) (by omega) rfl), ?_⟩
    rw [State.readHalfword_toNat, State.halfword_of_number _ a hk, hv]
  · refine ⟨_, State.loadByte_of_ordinary (State.ordinary_part hr' (by omega) (by omega) (by omega) rfl), ?_⟩
    rw [State.readByte_toNat, State.byte_of_number _ a hk, hv]

end Sys2Proof.Machine
end

section
/-!
SUPPORT. LDM, STM and PUSH from and to memory (40_memory_access.md R249 to R251).
-/

namespace Sys2Proof.Machine

/-! ## Register lists -/

theorem registersOf_length_le (list : BitVec 8) : (registersOf list).length ≤ 8 := List.length_filter_le _ lowRegs

/-- A register's place in a rising list is the number of those below it. -/
theorem getElem?_of_sorted {rs : List LowReg} (hs : rs.Pairwise (· < ·)) {r : LowReg} (hr : r ∈ rs) :
    rs[(rs.filter (fun q => decide (q.val < r.val))).length]? = some r := by
  induction rs with
  | nil => cases hr
  | cons r0 rs ih =>
    obtain ⟨hlt, hs⟩ := List.pairwise_cons.1 hs
    rcases List.mem_cons.1 hr with rfl | hr
    · have e : rs.filter (fun q => decide (q.val < r.val)) = [] :=
        List.filter_eq_nil_iff.2 fun q hq => by simpa using Nat.le_of_lt (hlt q hq)
      rw [List.filter_cons_of_neg (by simp), e]
      rfl
    · have hr0 : r0.val < r.val := hlt r hr
      rw [List.filter_cons_of_pos (by simpa using hr0), List.length_cons, List.getElem?_cons_succ]
      exact ih hs hr

theorem exists_getElem_registersOf {list : BitVec 8} {r : LowReg} (hr : list.getLsbD r.val = true) :
    ∃ h : ((registersOf list).filter (fun q => decide (q.val < r.val))).length < (registersOf list).length,
      (registersOf list)[((registersOf list).filter (fun q => decide (q.val < r.val))).length] = r :=
  List.getElem?_eq_some_iff.1 (getElem?_of_sorted (registersOf_sorted list) (mem_registersOf.2 hr))

theorem registersOf_isEmpty {list : BitVec 8} (h : list ≠ 0) : (registersOf list).isEmpty = false := by
  simpa using registersOf_ne_nil h

/-- A write to one low register leaves the others. -/
theorem State.readLow_writeLow_of_ne (s : State) {r rd : LowReg} (v : Word) (h : r ≠ rd) :
    (s.writeLow rd v).readLow r = s.readLow r :=
  (keepsRegisters_writeLow s rd v).readLow (rs := [rd]) (by simpa using h)

/-! ## What the transfers leave unchanged -/

theorem KeepsRegisters.advance {s t : State} {written : List Reg} (h : KeepsRegisters s t written) (n : Nat) :
    KeepsRegisters s (t.advance n) written where
  register r hr hn := (t.readReg_advance n hr).trans (h.register r hr hn)
  mainSp hn := h.mainSp hn
  processSp hn := h.processSp hn

theorem keepsRegisters_mem (s : State) (m : Memory) (st : List Word) (fi : Nat) :
    KeepsRegisters s { s with mem := m, stored := st, freeIndex := fi } [] := .of_eq [] rfl rfl rfl rfl rfl rfl

theorem keepsSystem_mem (s : State) (m : Memory) (st : List Word) (fi : Nat) :
    KeepsSystem s { s with mem := m, stored := st, freeIndex := fi } := by
  constructor <;> rfl

/-! ## LDM (R249) -/

/-- LDM of a list that is not empty is a transfer of its registers. -/
theorem execLdm_eq {list : BitVec 8} (hl : list ≠ 0) (rn : LowReg) (s : State) : exec (.ldm rn list) s =
    concludeTransfer s (s.readLow rn) (State.loadRegisters (registersOf list) (s.readLow rn) s)
      (State.loadSomeRegisters (some rn) (registersOf list) (s.readLow rn) s) fun t =>
        .next ((if list.getLsbD rn.val then t else
          t.writeLow rn (s.readLow rn + BitVec.ofNat 32 (4 * (registersOf list).length))).advance 2) :=
  if_neg (by simp [registersOf_isEmpty hl])

theorem execLdm_of_loaded {s t : State} {rn : LowReg} {list : BitVec 8} (hl : list ≠ 0)
    (h : State.loadRegisters (registersOf list) (s.readLow rn) s = .ok t) :
    exec (.ldm rn list) s = .next ((if list.getLsbD rn.val then t else
      t.writeLow rn (s.readLow rn + BitVec.ofNat 32 (4 * (registersOf list).length))).advance 2) := by
  rw [execLdm_eq hl, h]
  rfl

/-- Settles O24: the registers by `State.loadRegisters_eq`, then the write-back of a base that is not among them. -/
theorem ldmLoads : Obligations.LdmLoads := by
  intro s rn list hlist
  dsimp only
  intro ho
  obtain ⟨regs, hl, hk, hv⟩ := State.loadRegisters_eq (registersOf_sorted list) ho
  rw [execLdm_of_loaded hlist hl]
  refine ⟨_, rfl, ?_⟩
  cases hrn : list.getLsbD rn.val with
  | true =>
    refine ⟨rfl, fun r hr => hv r (mem_registersOf.2 hr), by simp, ?_⟩
    exact .advance 2 rfl (hk.congr fun r hr => List.mem_cons_of_mem _ hr) (by constructor <;> rfl) rfl
  | false =>
    refine ⟨rfl, fun r hr => ?_, fun _ => State.readLow_writeLow_self _ rn _, ?_⟩
    · have hne : r ≠ rn := fun e => by
        rw [e, hrn] at hr
        cases hr
      exact (congrArg BitVec.toNat (State.readLow_writeLow_of_ne _ _ hne)).trans (hv r (mem_registersOf.2 hr))
    · have hk' (v : Word) := hk.trans (keepsRegisters_writeLow { s with regs := regs } rn v) rfl
      exact .advance 2 rfl ((hk' _).congr fun r hr => by simpa [or_comm] using hr) (by constructor <;> rfl) rfl

/-! ## STM (R250) -/

/-- The words that STM stores are the registers of its list, but for a base that is not the lowest of them (U1). -/
theorem State.stmWords_eq (s : State) (rn : LowReg) (rs : List LowReg) :
    ∃ ws fi, s.stmWords rn rs = (ws, { s with freeIndex := fi }) ∧ ws.length = rs.length ∧
      ∀ (k : Nat) (h : k < rs.length) (h' : k < ws.length), (k = 0 ∨ rs[k] ≠ rn) → ws[k] = s.readLow rs[k] := by
  unfold State.stmWords
  split
  · rename_i hc
    refine ⟨_, s.freeIndex + 1, rfl, List.length_map .., fun k h h' hk => ?_⟩
    have hne : rs[k] ≠ rn := by
      rcases hk with rfl | hk
      · intro e
        simp [List.head?_eq_getElem?, List.getElem?_eq_getElem h, e] at hc
      · exact hk
    simp [hne]
  · exact ⟨_, s.freeIndex, rfl, List.length_map .., fun k h h' _ => by simp⟩

/-- STM of a list that is not empty is a transfer of the words it stores. -/
theorem execStm_eq {list : BitVec 8} (hl : list ≠ 0) {rn : LowReg} {s t : State} {ws : List Word}
    (hws : s.stmWords rn (registersOf list) = (ws, t)) : exec (.stm rn list) s =
    concludeTransfer s (s.readLow rn) (State.storeWords ws (s.readLow rn) t)
      (State.storeSomeWords ws (s.readLow rn) t) fun u =>
        .next ((u.writeLow rn (s.readLow rn + BitVec.ofNat 32 (4 * (registersOf list).length))).advance 2) := by
  change execStm rn list s = _
  simp [execStm, registersOf_isEmpty hl, hws, wordsSize]

theorem execStm_of_stored {s t u : State} {rn : LowReg} {list : BitVec 8} {ws : List Word} (hl : list ≠ 0)
    (hws : s.stmWords rn (registersOf list) = (ws, t)) (h : State.storeWords ws (s.readLow rn) t = .ok u) :
    exec (.stm rn list) s = .next ((u.writeLow rn
      (s.readLow rn + BitVec.ofNat 32 (4 * (registersOf list).length))).advance 2) := by
  rw [execStm_eq hl hws, h]
  rfl

/-- STM to memory: each register but a base that is not the lowest lies at its place, and the base is written back. -/
theorem execStm_of_ordinary {s : State} {rn : LowReg} {list : BitVec 8} (hlist : list ≠ 0) (hm : s.mem.wf = true)
    (ho : s.ordinaryWords .write (s.readLow rn) (registersOf list).length = true) :
    ∃ t, exec (.stm rn list) s = .next t ∧ t.apsr = s.apsr ∧ t.pc = s.pc + 2 ∧
      (∀ r : LowReg, list.getLsbD r.val = true →
        (r = rn → (registersOf list).filter (fun q => decide (q.val < r.val)) = []) →
        t.number (s.readLow rn + BitVec.ofNat 32
          (4 * ((registersOf list).filter (fun q => decide (q.val < r.val))).length)) 4 = (s.readLow r).toNat) ∧
      t.readLow rn = s.readLow rn + BitVec.ofNat 32 (4 * (registersOf list).length) ∧
      KeepsRegisters s t [rn.toReg] ∧ KeepsSystem s t ∧
      KeepsMemoryOutside s t (s.readLow rn) (4 * (registersOf list).length) := by
  obtain ⟨ws, fi, hws, hlen, hword⟩ := s.stmWords_eq rn (registersOf list)
  have hle := registersOf_length_le list
  obtain ⟨m, st, hst, -, hout, hnum⟩ := State.storeWords_eq (s := { s with freeIndex := fi }) (ws := ws)
    (a := s.readLow rn) hm (by rw [hlen]; exact ho) (by omega)
  rw [execStm_of_stored hlist hws hst]
  refine ⟨_, rfl, rfl, rfl, fun r hr hlow => ?_, State.readLow_writeLow_self _ rn _, ?_, by constructor <;> rfl, ?_⟩
  · obtain ⟨hk, hget⟩ := exists_getElem_registersOf hr
    refine (State.number_congr fun _ _ => rfl).trans ((hnum _ (by rw [hlen]; exact hk)).trans ?_)
    rw [hword _ hk (by rw [hlen]; exact hk), hget]
    by_cases hrn : r = rn
    · exact .inl (by rw [hlow hrn, List.length_nil])
    · exact .inr (by rwa [hget])
  · exact ((keepsRegisters_mem s m st fi).trans (keepsRegisters_writeLow _ rn _) rfl).advance 2
  · rw [← hlen]
    exact hout

/-- Settles O25: a base that is in the list is its lowest register, so that every word is a register. -/
theorem stmStores : Obligations.StmStores := by
  intro s rn list hlist hlow
  dsimp only
  intro hm ho
  obtain ⟨t, ht, hf, hpc, hnum, hframe⟩ := execStm_of_ordinary hlist hm ho
  refine ⟨t, ht, hf, hpc, fun r hr => hnum r hr fun hrn => ?_, hframe⟩
  subst hrn
  refine List.filter_eq_nil_iff.2 fun q hq hlt => ?_
  have := hlow hr q (of_decide_eq_true hlt)
  rw [mem_registersOf.1 hq] at this
  cases this

/-! ## PUSH (R251) -/

theorem State.pushWords_length (s : State) (lr : Bool) (list : BitVec 8) :
    (s.pushWords lr list).length = (registersOf list).length + bitValue lr := by
  cases lr <;> simp [State.pushWords, bitValue]

theorem State.pushWords_getElem (s : State) (lr : Bool) (list : BitVec 8) {k : Nat}
    (h : k < (registersOf list).length)
    (h' : k < (s.pushWords lr list).length) : (s.pushWords lr list)[k] = s.readLow (registersOf list)[k] := by
  simp [State.pushWords, h]

theorem State.pushWords_getElem_lr (s : State) (list : BitVec 8)
    (h : (registersOf list).length < (s.pushWords true list).length) :
    (s.pushWords true list)[(registersOf list).length] = s.lr := by
  simp [State.pushWords]

/-- A well-formed PUSH stores something (30_encoding.md R207). -/
theorem State.pushWords_isEmpty {s : State} {lr : Bool} {list : BitVec 8}
    (h : (Instr.push lr list).wellFormed = true) : (s.pushWords lr list).isEmpty = false := by
  cases lr with
  | true => simp [State.pushWords]
  | false =>
    have hl : list ≠ 0 := by simpa [Instr.wellFormed] using h
    simpa [State.pushWords] using registersOf_ne_nil hl

/-- A well-formed PUSH is a transfer of the words it stores. -/
theorem execPush_eq {lr : Bool} {list : BitVec 8} (hwf : (Instr.push lr list).wellFormed = true) (s : State) :
    exec (.push lr list) s = concludeTransfer s (s.sp - BitVec.ofNat 32 (4 * (s.pushWords lr list).length))
      (State.storeWords (s.pushWords lr list) (s.sp - BitVec.ofNat 32 (4 * (s.pushWords lr list).length)) s)
      (State.storeSomeWords (s.pushWords lr list) (s.sp - BitVec.ofNat 32 (4 * (s.pushWords lr list).length)) s)
      fun t => .next ((t.setSp (s.sp - BitVec.ofNat 32 (4 * (s.pushWords lr list).length))).advance 2) :=
  if_neg (by simp [State.pushWords_isEmpty hwf])

theorem execPush_of_stored {s u : State} {lr : Bool} {list : BitVec 8} (hwf : (Instr.push lr list).wellFormed = true)
    (h : State.storeWords (s.pushWords lr list)
      (s.sp - BitVec.ofNat 32 (4 * ((registersOf list).length + bitValue lr))) s = .ok u) :
    exec (.push lr list) s = .next ((u.setSp
      (s.sp - BitVec.ofNat 32 (4 * ((registersOf list).length + bitValue lr)))).advance 2) := by
  rw [execPush_eq hwf, State.pushWords_length, h]
  rfl

/-- Settles O27: the words by `State.storeWords_eq`, then the move of the stack pointer. -/
theorem pushStores : Obligations.PushStores := by
  intro s lr list hwf
  dsimp only
  intro hm ho
  have hlen := s.pushWords_length lr list
  have hle := registersOf_length_le list
  have hbit := bitValue_le_one lr
  obtain ⟨m, st, hst, -, hout, hnum⟩ := State.storeWords_eq hm (by rw [hlen]; exact ho) (by omega)
  rw [execPush_of_stored hwf hst]
  have stored {k : Nat} {v : Word} (u : Word) (hk : k < (s.pushWords lr list).length)
      (hv : (s.pushWords lr list)[k] = v) : State.number ((State.setSp { s with mem := m, stored := st } u).advance 2)
      (s.sp - BitVec.ofNat 32 (4 * ((registersOf list).length + bitValue lr)) + BitVec.ofNat 32 (4 * k)) 4 =
        v.toNat := by
    rw [← hv, ← hnum k hk]
    exact State.number_congr fun _ _ => by rw [State.advance_mem, State.setSp_mem]
  refine ⟨_, rfl, State.setSp_apsr _ _, congrArg (· + 2) (State.setSp_pc _ _),
    (State.sp_setSp _ _).trans (s.alignWord_sp_sub _), fun r hr => ?_, fun hlr => ?_,
    ((keepsRegisters_mem s m st s.freeIndex).trans (keepsRegisters_setSp _ _) rfl).advance 2,
    ((keepsSystem_mem s m st s.freeIndex).trans (keepsSystem_setSp _ _)).trans (by constructor <;> rfl),
    fun k hk => ?_⟩
  · obtain ⟨hk, hget⟩ := exists_getElem_registersOf hr
    exact stored _ (by omega) ((s.pushWords_getElem lr list hk _).trans (by rw [hget]))
  · subst hlr
    exact stored _ (by rw [hlen]; exact Nat.lt_succ_self _) (s.pushWords_getElem_lr list _)
  · rw [State.advance_mem, State.setSp_mem]
    exact hout k (by rw [hlen]; exact hk)

end Sys2Proof.Machine
end

section
/-!
SUPPORT. Multiple transfers that a misaligned base or a bus error stops (20_memory.md R136, R138, D9).
-/

namespace Sys2Proof.Machine

/-! ## Words that memory answers, or that fault -/

/-- Each of `n` words from `a` on is answered by memory or raises HardFault. -/
def State.WordsOrFaults (s : State) (kind : AccessKind) (a : Word) (n : Nat) : Prop :=
  ∀ k : Nat, k < n → s.ordinary kind (a + BitVec.ofNat 32 (4 * k)) 4 = true ∨
    s.accessFaults kind (a + BitVec.ofNat 32 (4 * k)) 4

theorem State.WordsOrFaults.head {s : State} {kind : AccessKind} {a : Word} {n : Nat}
    (h : s.WordsOrFaults kind a (n + 1)) : s.ordinary kind a 4 = true ∨ s.accessFaults kind a 4 := by
  simpa using h 0 (Nat.succ_pos n)

theorem State.WordsOrFaults.tail {s : State} {kind : AccessKind} {a : Word} {n : Nat}
    (h : s.WordsOrFaults kind a (n + 1)) : s.WordsOrFaults kind (a + 4) n := fun k hk => by
  rw [← add_word_succ]
  exact h (k + 1) (Nat.succ_lt_succ hk)

theorem State.WordsOrFaults.mono {s : State} {kind : AccessKind} {a : Word} {n m : Nat}
    (h : s.WordsOrFaults kind a n) (hm : m ≤ n) : s.WordsOrFaults kind a m := fun k hk => h k (Nat.lt_of_lt_of_le hk hm)

theorem add_word_mod_four (a : Word) (k : Nat) : (a + BitVec.ofNat 32 (4 * k)).toNat % 4 = a.toNat % 4 := by
  rw [BitVec.toNat_add, BitVec.toNat_ofNat]
  omega

/-- No word of a transfer from a misaligned base is made (R136). -/
theorem State.accessFaults_of_unaligned {s : State} {kind : AccessKind} {a : Word} (h : aligned a 4 = false) (k : Nat) :
    s.accessFaults kind (a + BitVec.ofNat 32 (4 * k)) 4 :=
  .inl (aligned_eq_false_iff.2 (by rw [add_word_mod_four]; exact aligned_eq_false_iff.1 h))

/-- The words of a transfer that a bus error stops (R138). -/
theorem State.transferFaults.words {s : State} {kind : AccessKind} {a : Word} {n : Nat} (ha : aligned a 4 = true)
    (h : s.transferFaults kind a n) :
    s.WordsOrFaults kind a n ∧ ∃ k < n, s.accessFaults kind (a + BitVec.ofNat 32 (4 * k)) 4 := by
  obtain ⟨hw, k, hk, ht⟩ := h
  refine ⟨fun j hj => ?_, k, hk, .inr (.inr ⟨(hw k hk).1, ht⟩)⟩
  obtain ⟨hp, hd⟩ := hw j hj
  have haj : aligned (a + BitVec.ofNat 32 (4 * j)) 4 = true :=
    aligned_iff.2 (by rw [add_word_mod_four]; exact aligned_iff.1 ha)
  cases hj' : targetOf s.memMap kind (a + BitVec.ofNat 32 (4 * j)) 4 with
  | memory => exact .inl (State.ordinary_iff.2 ⟨haj, hp, hj'⟩)
  | device => exact absurd hj' hd
  | nothing => exact .inr (.inr (.inr ⟨hp, hj'⟩))

/-! ## The whole transfer fails -/

/-- A fault at some word is a fault at the first, or one further on. -/
theorem State.accessFaults_head_or_tail {s : State} {kind : AccessKind} {a : Word} {n : Nat}
    (h : ∃ k < n + 1, s.accessFaults kind (a + BitVec.ofNat 32 (4 * k)) 4) :
    s.accessFaults kind a 4 ∨ ∃ k < n, s.accessFaults kind (a + 4 + BitVec.ofNat 32 (4 * k)) 4 := by
  obtain ⟨k, hk, hf⟩ := h
  cases k with
  | zero => exact .inl (by simpa using hf)
  | succ k => exact .inr ⟨k, Nat.lt_of_succ_lt_succ hk, by rwa [← add_word_succ]⟩

theorem State.loadRegisters_of_accessFaults {rs : List LowReg} {a : Word} {s : State}
    (h : s.WordsOrFaults .read a rs.length)
    (hf : ∃ k < rs.length, s.accessFaults .read (a + BitVec.ofNat 32 (4 * k)) 4) :
    ∃ c, State.loadRegisters rs a s = .hardFault c := by
  induction rs generalizing a s with
  | nil => obtain ⟨k, hk, -⟩ := hf; cases hk
  | cons r rs ih =>
    have failed (h0 : s.accessFaults .read a 4) : ∃ c, State.loadRegisters (r :: rs) a s = .hardFault c := by
      obtain ⟨c, hc⟩ := State.loadWord_of_accessFaults h0
      exact ⟨c, by simp [State.loadRegisters, hc, Access.bind]⟩
    rcases State.accessFaults_head_or_tail hf with h0 | hf
    · exact failed h0
    · rcases h.head with h0 | h0
      · simp only [State.loadRegisters, State.loadWord_of_ordinary h0, Access.bind]
        exact ih (s := s.writeLow r _) h.tail hf
      · exact failed h0

theorem State.storeWords_of_accessFaults {ws : List Word} {a : Word} {s : State}
    (h : s.WordsOrFaults .write a ws.length)
    (hf : ∃ k < ws.length, s.accessFaults .write (a + BitVec.ofNat 32 (4 * k)) 4) :
    ∃ c, State.storeWords ws a s = .hardFault c := by
  induction ws generalizing a s with
  | nil => obtain ⟨k, hk, -⟩ := hf; cases hk
  | cons w ws ih =>
    have failed (h0 : s.accessFaults .write a 4) : ∃ c, State.storeWords (w :: ws) a s = .hardFault c := by
      obtain ⟨c, hc⟩ := State.storeWord_of_accessFaults w h0
      exact ⟨c, by simp [State.storeWords, hc, Access.bind]⟩
    rcases State.accessFaults_head_or_tail hf with h0 | hf
    · exact failed h0
    · rcases h.head with h0 | h0
      · simp only [State.storeWords, State.storeWord_of_ordinary w h0, Access.bind]
        exact ih (s := s.storeTo _ a 4) h.tail hf
      · exact failed h0

/-! ## The part of a transfer that is made (D9, U13) -/

/-- One register of a load list: it keeps its value, or gets the word. -/
theorem State.loadSomeRegisters_cons {keep : Option LowReg} {r : LowReg} {rs : List LowReg} {a : Word} {s : State}
    (h : s.ordinary .read a 4 = true ∨ s.accessFaults .read a 4) :
    ∃ u, State.loadSomeRegisters keep (r :: rs) a s = State.loadSomeRegisters keep rs (a + 4) u ∧
      (u = s.afterDraw ∨ (keep ≠ some r ∧ u = s.afterDraw.writeLow r (s.mem.readWord a))) := by
  simp only [State.loadSomeRegisters, State.drawBit]
  rcases h with h | h
  · rw [State.loadWord_of_ordinary (State.ordinary_of_memMap_eq (t := s.afterDraw) rfl h)]
    refine ⟨_, rfl, ?_⟩
    by_cases hb : (Config.freeBit s.freeIndex && keep != some r) = true
    · exact .inr ⟨by simpa using (Bool.and_eq_true_iff.1 hb).2, if_pos hb⟩
    · exact .inl (if_neg hb)
  · obtain ⟨c, hc⟩ := State.loadWord_of_accessFaults (s := s.afterDraw) h
    rw [hc]
    exact ⟨_, rfl, .inl rfl⟩

/-- Each register of a list without repetition is old or loaded, `keep` is old, and nothing else changes. -/
theorem State.loadSomeRegisters_eq {keep : Option LowReg} {rs : List LowReg} (hn : rs.Nodup) {a : Word} {s : State}
    (h : s.WordsOrFaults .read a rs.length) :
    ∃ regs fi, State.loadSomeRegisters keep rs a s = .ok { s with regs := regs, freeIndex := fi } ∧
      KeepsRegisters s { s with regs := regs, freeIndex := fi } (rs.map LowReg.toReg) ∧
      (∀ r, keep = some r → State.readLow { s with regs := regs, freeIndex := fi } r = s.readLow r) ∧
      ∀ (k : Nat) (hk : k < rs.length),
        State.readLow { s with regs := regs, freeIndex := fi } rs[k] = s.readLow rs[k] ∨
        (State.readLow { s with regs := regs, freeIndex := fi } rs[k]).toNat =
          s.number (a + BitVec.ofNat 32 (4 * k)) 4 := by
  induction rs generalizing a s with
  | nil => exact ⟨s.regs, s.freeIndex, rfl, .refl s _, fun _ _ => rfl, fun k hk => by cases hk⟩
  | cons r0 rs ih =>
    obtain ⟨hr0, hn⟩ := List.nodup_cons.1 hn
    obtain ⟨u, hu, rfl | ⟨hkeep, rfl⟩⟩ := State.loadSomeRegisters_cons (keep := keep) (r := r0) (rs := rs) h.head
    · obtain ⟨regs, fi, hl, hk, hkept, hv⟩ := ih hn (s := s.afterDraw) h.tail
      refine ⟨regs, fi, hu.trans hl, ?_, hkept, fun k hlt => ?_⟩
      · exact ((keepsRegisters_mem s s.mem s.stored (s.freeIndex + 1)).trans hk rfl).congr
          fun r hr => List.mem_cons_of_mem _ hr
      · cases k with
        | zero => exact .inl (hk.readLow hr0)
        | succ k =>
          rw [add_word_succ]
          exact hv k (Nat.lt_of_succ_lt_succ hlt)
    · obtain ⟨regs, fi, hl, hk, hkept, hv⟩ := ih hn (s := s.afterDraw.writeLow r0 (s.mem.readWord a)) h.tail
      refine ⟨regs, fi, hu.trans hl, ?_, fun r hr => ?_, fun k hlt => ?_⟩
      · exact (keepsRegisters_mem s s.mem s.stored (s.freeIndex + 1)).trans
          ((keepsRegisters_writeLow s.afterDraw r0 _).trans hk rfl) rfl
      · have hne : r ≠ r0 := fun e => hkeep (e ▸ hr)
        exact (hkept r hr).trans (State.readLow_writeLow_of_ne s.afterDraw _ hne)
      · cases k with
        | zero =>
          refine .inr ?_
          rw [Nat.mul_zero, BitVec.add_zero, ← State.readWord_toNat]
          exact congrArg BitVec.toNat ((hk.readLow hr0).trans (s.afterDraw.readLow_writeLow_self r0 _))
        | succ k =>
          have hk' := Nat.lt_of_succ_lt_succ hlt
          have hne : rs[k] ≠ r0 := fun e => hr0 (e ▸ List.getElem_mem hk')
          rw [add_word_succ]
          exact (hv k hk').imp (fun e => e.trans (State.readLow_writeLow_of_ne s.afterDraw _ hne)) id

/-- One word of a store range: its location keeps its value, or gets the word. -/
theorem State.storeSomeWords_cons {v : Word} {vs : List Word} {a : Word} {s : State}
    (h : s.ordinary .write a 4 = true ∨ s.accessFaults .write a 4) :
    ∃ u, State.storeSomeWords (v :: vs) a s = State.storeSomeWords vs (a + 4) u ∧
      (u = s.afterDraw ∨ u = s.afterDraw.storeTo (s.mem.writeWord a v) a 4) := by
  simp only [State.storeSomeWords, State.drawBit]
  rcases h with h | h
  · rw [State.storeWord_of_ordinary v (State.ordinary_of_memMap_eq (t := s.afterDraw) rfl h)]
    refine ⟨_, rfl, ?_⟩
    by_cases hb : Config.freeBit s.freeIndex = true
    · exact .inr (if_pos hb)
    · exact .inl (if_neg hb)
  · obtain ⟨c, hc⟩ := State.storeWord_of_accessFaults (s := s.afterDraw) v h
    rw [hc]
    exact ⟨_, rfl, .inl rfl⟩

/-- A word that does not overlap the bytes that may have changed. -/
theorem KeepsMemoryOutside.number_eq {s t : State} {a : Word} {i j n : Nat}
    (h : KeepsMemoryOutside s t (a + BitVec.ofNat 32 i) n) (hd : j + 4 ≤ i ∨ i + n ≤ j) (hi : i + n ≤ 2 ^ 32)
    (hj : j + 4 ≤ 2 ^ 32) :
    t.number (a + BitVec.ofNat 32 j) 4 = s.number (a + BitVec.ofNat 32 j) 4 := by
  refine State.number_congr fun q hq => h _ fun p hp e => ?_
  rw [byteAddress_add, byteAddress_add] at e
  have := byteAddress_inj (by omega) (by omega) e
  omega

/-- Each word of a store range is old or stored, and nothing else changes. -/
theorem State.storeSomeWords_eq {ws : List Word} {a : Word} {s : State} (h : s.WordsOrFaults .write a ws.length) :
    ∃ m st fi, State.storeSomeWords ws a s = .ok { s with mem := m, stored := st, freeIndex := fi } ∧
      (s.mem.wf = true → 4 * ws.length ≤ 2 ^ 32 → m.wf = true ∧
        KeepsMemoryOutside s { s with mem := m, stored := st, freeIndex := fi } a (4 * ws.length) ∧
        ∀ (k : Nat) (hk : k < ws.length),
          State.number { s with mem := m, stored := st, freeIndex := fi } (a + BitVec.ofNat 32 (4 * k)) 4 =
              s.number (a + BitVec.ofNat 32 (4 * k)) 4 ∨
            State.number { s with mem := m, stored := st, freeIndex := fi } (a + BitVec.ofNat 32 (4 * k)) 4 =
              ws[k].toNat) := by
  induction ws generalizing a s with
  | nil => exact ⟨s.mem, s.stored, s.freeIndex, rfl, fun hm _ => ⟨hm, fun _ _ => rfl, fun k hk => by cases hk⟩⟩
  | cons w ws ih =>
    obtain ⟨u, hu, huc⟩ := State.storeSomeWords_cons (v := w) (vs := ws) h.head
    have hframe : u = { s with mem := u.mem, stored := u.stored, freeIndex := u.freeIndex } := by
      rcases huc with rfl | rfl <;> rfl
    have htail : u.WordsOrFaults .write (a + 4) ws.length := by
      rw [hframe]
      exact h.tail
    obtain ⟨m, st, fi, hs, hp⟩ := ih htail
    refine ⟨m, st, fi, (hu.trans hs).trans (by rw [hframe]), fun hm hlen => ?_⟩
    have hl : (w :: ws).length = ws.length + 1 := rfl
    have hu' : u.mem.wf = true ∧ KeepsMemoryOutside s u a 4 ∧
        (u.number a 4 = s.number a 4 ∨ u.number a 4 = w.toNat) := by
      rcases huc with rfl | rfl
      · exact ⟨hm, fun _ _ => rfl, .inl rfl⟩
      · exact ⟨Memory.wf_writeWord a w hm, keepsMemoryOutside_writeWord hm a w, .inr (State.number_storeTo hm a w)⟩
    obtain ⟨hwf, hout, h0⟩ := hu'
    obtain ⟨hmwf, hpout, hpn⟩ := hp hwf (by omega)
    refine ⟨hmwf, fun k hk => ?_, fun k hk => ?_⟩
    · refine (hpout k fun i hi => ?_).trans (hout k fun i hi => hk i (by omega))
      rw [byteAddress_add_four]
      exact hk (i + 4) (by omega)
    · cases k with
      | zero =>
        have e := KeepsMemoryOutside.number_eq (i := 4) (j := 0) hpout (.inl (by omega)) (by omega) (by omega)
        rw [BitVec.add_zero] at e
        rw [Nat.mul_zero, BitVec.add_zero]
        exact h0.imp e.trans e.trans
      | succ k =>
        have hk' := Nat.lt_of_succ_lt_succ hk
        have e := KeepsMemoryOutside.number_eq (s := s) (t := u) (a := a) (i := 0) (j := 4 * (k + 1)) (n := 4)
          (by rwa [BitVec.add_zero]) (.inr (by omega)) (by omega) (by omega)
        rw [add_word_succ] at e ⊢
        exact (hpn k hk').imp_left fun e' => e'.trans e

end Sys2Proof.Machine
end

section
/-!
SUPPORT. The memory access instructions that raise HardFault (60_exceptions.md R428, R445; 20_memory.md R135 to R141).
-/

namespace Sys2Proof.Machine

/-! ## What a stopped transfer leaves -/

/-- `p` is `s` but for registers, memory and what the model records of stores and draws. -/
def TransferOnly (s p : State) : Prop :=
  p = { s with regs := p.regs, mem := p.mem, stored := p.stored, freeIndex := p.freeIndex }

/-- A part of a load of the registers `rl`, and of the PC above them, is a stopped transfer. -/
theorem stoppedTransfer_of_loaded {s : State} {i : Instr} {base : Word} {keep : Option LowReg} {rl : List LowReg}
    {regs : Vector Word 13} {fi : Nat} (pc : Bool) (hi : ∀ rn list, i = .ldm rn list → keep = some rn)
    (hr : KeepsRegisters s { s with regs := regs, freeIndex := fi } (rl.map LowReg.toReg))
    (hk : ∀ r, keep = some r → State.readLow { s with regs := regs, freeIndex := fi } r = s.readLow r)
    (hv : ∀ (k : Nat) (hk : k < rl.length),
      State.readLow { s with regs := regs, freeIndex := fi } rl[k] = s.readLow rl[k] ∨
      (State.readLow { s with regs := regs, freeIndex := fi } rl[k]).toNat =
        s.number (base + BitVec.ofNat 32 (4 * k)) 4) :
    StoppedTransfer s { s with regs := regs, freeIndex := fi } i .read base
      (rl.map LowReg.toReg ++ if pc then [15] else []) where
  pc := rfl
  apsr := rfl
  system := by constructor <;> rfl
  registers := hr.congr fun r hr => List.mem_append_left _ hr
  baseRegister rn list e := hk rn (hi rn list e)
  loaded _ k h h15 := by
    by_cases hlt : k < rl.length
    · have e : (rl.map LowReg.toReg ++ if pc then [15] else [])[k] = rl[k].toReg := by
        rw [List.getElem_append_left (by simpa using hlt), List.getElem_map]
      rw [e, State.readReg_toReg, State.readReg_toReg]
      exact hv k hlt
    · cases pc with
      | true =>
        rw [List.getElem_append_right (by simpa using hlt)] at h15
        simp at h15
      | false =>
        simp only [List.length_append, List.length_map] at h
        exact absurd h hlt
  words h := by cases h
  memory _ _ := rfl

/-- A part of a store of the words `ws` is a stopped transfer. -/
theorem stoppedTransfer_of_stored {s : State} {i : Instr} {base : Word} {rs : List Reg} {ws : List Word} {m : Memory}
    {st : List Word} {fi : Nat} (hlen : ws.length = rs.length)
    (hw : ∀ (k : Nat) (h : k < rs.length) (h' : k < ws.length),
      (k = 0 ∨ ∀ rn list, i = .stm rn list → rs[k] ≠ rn.toReg) → ws[k] = s.readReg rs[k])
    (ho : KeepsMemoryOutside s { s with mem := m, stored := st, freeIndex := fi } base (4 * ws.length))
    (hv : ∀ (k : Nat) (hk : k < ws.length),
      State.number { s with mem := m, stored := st, freeIndex := fi } (base + BitVec.ofNat 32 (4 * k)) 4 =
          s.number (base + BitVec.ofNat 32 (4 * k)) 4 ∨
        State.number { s with mem := m, stored := st, freeIndex := fi } (base + BitVec.ofNat 32 (4 * k)) 4 =
          ws[k].toNat) :
    StoppedTransfer s { s with mem := m, stored := st, freeIndex := fi } i .write base rs where
  pc := rfl
  apsr := rfl
  system := keepsSystem_mem s m st fi
  registers := keepsRegisters_mem s m st fi
  baseRegister _ _ _ := rfl
  loaded h := by cases h
  words _ k h hc := by
    rw [← hw k h (by omega) hc]
    exact hv k (by omega)
  memory := by
    rw [← hlen]
    exact ho

/-! ## The end of a stopped transfer -/

/-- The instruction `i` raises HardFault in `p`, the state that a part of its transfer from `s` leaves. -/
structure RaisesAfter (s p : State) (i : Instr) (kind : AccessKind) (base : Word) (rs : List Reg) : Prop where
  raised : ∃ c, exec i s = raiseHardFault c s p
  only : TransferOnly s p
  wf : s.mem.wf = true → p.mem.wf = true
  stopped : s.mem.wf = true → StoppedTransfer s p i kind base rs

theorem concludeTransfer_of_part {s p : State} {base : Word} {whole part : Access State} (k : State → Result)
    (ha : aligned base 4 = true) (hw : ∃ c, whole = .hardFault c) (hp : part = .ok p) :
    ∃ c, concludeTransfer s base whole part k = raiseHardFault c s p := by
  obtain ⟨c, rfl⟩ := hw
  subst hp
  exact ⟨c, if_pos ha⟩

theorem concludeTransfer_of_unaligned {s : State} {base : Word} {whole part : Access State} (k : State → Result)
    (ha : aligned base 4 = false) (hw : ∃ c, whole = .hardFault c) :
    ∃ c, concludeTransfer s base whole part k = raiseHardFault c s s := by
  obtain ⟨c, rfl⟩ := hw
  exact ⟨c, if_neg (by simp [ha])⟩

/-- POP with PC whose registers are all loaded and whose last word faults. -/
theorem execPop_true_of_pcSlot {s t p : State} {list : BitVec 8} {c : FaultCause}
    (hl : State.loadRegisters (registersOf list) s.sp s = .ok t)
    (hw : t.loadWord (s.sp + BitVec.ofNat 32 (4 * (registersOf list).length)) = .hardFault c)
    (hp : State.loadSomeRegisters none (registersOf list) s.sp s = .ok p) :
    exec (.pop true list) s = raiseHardFault c s p := by
  change execPop true list s = _
  simp [execPop, hl, concludeTransfer, wordsSize, hw, hp, Access.conclude]

theorem registersOf_nodup (list : BitVec 8) : (registersOf list).Nodup :=
  (registersOf_sorted list).imp fun h => ne_of_lt h

/-! ## The four transfers -/

theorem ldm_raisesAfter {s : State} {rn : LowReg} {list : BitVec 8} (hlist : list ≠ 0)
    (ha : aligned (s.readLow rn) 4 = true) (hf : s.transferFaults .read (s.readLow rn) (registersOf list).length) :
    ∃ p, RaisesAfter s p (.ldm rn list) .read (s.readLow rn) ((registersOf list).map LowReg.toReg) := by
  obtain ⟨hw, hk⟩ := hf.words ha
  obtain ⟨regs, fi, hp, hr, hkeep, hv⟩ := State.loadSomeRegisters_eq (keep := some rn) (registersOf_nodup list) hw
  refine ⟨{ s with regs := regs, freeIndex := fi }, ?_, rfl, id, fun _ => ?_⟩
  · rw [execLdm_eq hlist]
    exact concludeTransfer_of_part _ ha (State.loadRegisters_of_accessFaults hw hk) hp
  · have hi (rn' : LowReg) (list' : BitVec 8) (e : Instr.ldm rn list = .ldm rn' list') : some rn = some rn' := by
      cases e
      rfl
    simpa using stoppedTransfer_of_loaded false hi hr hkeep hv

/-- POP whose registers are not all loaded. -/
theorem execPop_of_part {s p : State} {pc : Bool} {list : BitVec 8} (hwf : (Instr.pop pc list).wellFormed = true)
    (hw : ∃ c, State.loadRegisters (registersOf list) s.sp s = .hardFault c)
    (hp : State.loadSomeRegisters none (registersOf list) s.sp s = .ok p) :
    ∃ c, exec (.pop pc list) s = raiseHardFault c s p := by
  have ha : aligned s.sp 4 = true := aligned_iff.2 s.sp_mod_four
  change ∃ c, execPop pc list s = raiseHardFault c s p
  cases pc with
  | true => exact concludeTransfer_of_part _ ha hw hp
  | false =>
    have hlist : list ≠ 0 := by simpa [Instr.wellFormed] using hwf
    simp only [execPop, registersOf_isEmpty hlist, Bool.false_eq_true, if_false]
    exact concludeTransfer_of_part _ ha hw hp

/-- POP with PC, where only the word that it loads into the PC faults. -/
theorem execPop_true_of_last {s p : State} {list : BitVec 8} {k : Nat}
    (hw : s.WordsOrFaults .read s.sp (registersOf list).length)
    (hregs : ¬∃ k < (registersOf list).length, s.accessFaults .read (s.sp + BitVec.ofNat 32 (4 * k)) 4)
    (hk : k < (registersOf list).length + 1) (hf : s.accessFaults .read (s.sp + BitVec.ofNat 32 (4 * k)) 4)
    (hp : State.loadSomeRegisters none (registersOf list) s.sp s = .ok p) :
    ∃ c, exec (.pop true list) s = raiseHardFault c s p := by
  have hlast : k = (registersOf list).length := by
    have : ¬k < (registersOf list).length := fun h => hregs ⟨k, h, hf⟩
    omega
  subst hlast
  have hord : s.ordinaryWords .read s.sp (registersOf list).length = true :=
    State.ordinaryWords_iff.2 fun j hj => (hw j hj).resolve_right fun h => hregs ⟨j, hj, h⟩
  obtain ⟨regs, hl, -, -⟩ := State.loadRegisters_eq (registersOf_sorted list) hord
  obtain ⟨c, hc⟩ := State.loadWord_of_accessFaults (s := { s with regs := regs }) hf
  exact ⟨c, execPop_true_of_pcSlot hl hc hp⟩

theorem pop_raisesAfter {s : State} {pc : Bool} {list : BitVec 8} (hwf : (Instr.pop pc list).wellFormed = true)
    (hf : s.transferFaults .read s.sp ((registersOf list).map LowReg.toReg ++ if pc then [15] else []).length) :
    ∃ p, RaisesAfter s p (.pop pc list) .read s.sp
      ((registersOf list).map LowReg.toReg ++ if pc then [15] else []) := by
  obtain ⟨hw, k, hk, hfault⟩ := hf.words (aligned_iff.2 s.sp_mod_four)
  have hwr : s.WordsOrFaults .read s.sp (registersOf list).length := hw.mono (by simp)
  obtain ⟨regs, fi, hp, hr, hkeep, hv⟩ := State.loadSomeRegisters_eq (keep := none) (registersOf_nodup list) hwr
  refine ⟨{ s with regs := regs, freeIndex := fi }, ?_, rfl, id,
    fun _ => stoppedTransfer_of_loaded pc (fun _ _ e => by cases e) hr hkeep hv⟩
  by_cases hregs : ∃ k < (registersOf list).length, s.accessFaults .read (s.sp + BitVec.ofNat 32 (4 * k)) 4
  · exact execPop_of_part hwf (State.loadRegisters_of_accessFaults hwr hregs) hp
  · cases pc with
    | true => exact execPop_true_of_last hwr hregs (by simpa using hk) hfault hp
    | false => exact absurd ⟨k, by simpa using hk, hfault⟩ hregs

theorem stm_raisesAfter {s : State} {rn : LowReg} {list : BitVec 8} (hlist : list ≠ 0)
    (ha : aligned (s.readLow rn) 4 = true) (hf : s.transferFaults .write (s.readLow rn) (registersOf list).length) :
    ∃ p, RaisesAfter s p (.stm rn list) .write (s.readLow rn) ((registersOf list).map LowReg.toReg) := by
  obtain ⟨hw, hk⟩ := hf.words ha
  obtain ⟨ws, fi, hws, hlen, hword⟩ := s.stmWords_eq rn (registersOf list)
  rw [← hlen] at hw hk
  have hle := registersOf_length_le list
  obtain ⟨m, st, fi', hp, hpart⟩ := State.storeSomeWords_eq (s := { s with freeIndex := fi }) hw
  refine ⟨{ s with mem := m, stored := st, freeIndex := fi' }, ?_, rfl,
    fun hm => (hpart hm (by omega)).1, fun hm => ?_⟩
  · rw [execStm_eq hlist hws]
    exact concludeTransfer_of_part _ ha (State.storeWords_of_accessFaults (s := { s with freeIndex := fi }) hw hk) hp
  · obtain ⟨-, hout, hnum⟩ := hpart hm (by omega)
    refine stoppedTransfer_of_stored (hlen.trans (List.length_map _).symm) (fun k h h' hc => ?_) hout hnum
    rw [List.getElem_map, State.readReg_toReg]
    refine hword k (by simpa using h) h' (hc.imp_right fun hne e => hne rn list rfl ?_)
    rw [List.getElem_map, e]

/-- The words of PUSH are the registers that the statement lists. -/
theorem State.pushWords_eq_map (s : State) (lr : Bool) (list : BitVec 8) :
    s.pushWords lr list = ((registersOf list).map LowReg.toReg ++ if lr then [14] else []).map s.readReg := by
  have h14 : s.readReg 14 = s.lr := rfl
  cases lr <;> simp [State.pushWords, h14]

theorem push_raisesAfter {s : State} {lr : Bool} {list : BitVec 8} (hwf : (Instr.push lr list).wellFormed = true)
    (hf : s.transferFaults .write (s.sp - BitVec.ofNat 32 (4 * ((registersOf list).length + if lr then 1 else 0)))
      ((registersOf list).map LowReg.toReg ++ if lr then [14] else []).length) :
    ∃ p, RaisesAfter s p (.push lr list) .write
      (s.sp - BitVec.ofNat 32 (4 * ((registersOf list).length + if lr then 1 else 0)))
      ((registersOf list).map LowReg.toReg ++ if lr then [14] else []) := by
  have hws := s.pushWords_eq_map lr list
  have hlen : (s.pushWords lr list).length =
      ((registersOf list).map LowReg.toReg ++ if lr then [14] else []).length := by
    rw [hws, List.length_map]
  have hcount : (s.pushWords lr list).length = (registersOf list).length + if lr then 1 else 0 :=
    s.pushWords_length lr list
  have hle := registersOf_length_le list
  have hbit := bitValue_le_one lr
  have hshort : 4 * (s.pushWords lr list).length ≤ 2 ^ 32 := by
    rw [s.pushWords_length]
    omega
  rw [← hcount] at hf ⊢
  have ha : aligned (s.sp - BitVec.ofNat 32 (4 * (s.pushWords lr list).length)) 4 = true :=
    aligned_iff.2 ((alignWord_eq_self_iff _).1 (s.alignWord_sp_sub _))
  obtain ⟨hw, hk⟩ := hf.words ha
  rw [← hlen] at hw hk
  obtain ⟨m, st, fi, hp, hpart⟩ := State.storeSomeWords_eq hw
  refine ⟨{ s with mem := m, stored := st, freeIndex := fi }, ?_, rfl, fun hm => (hpart hm hshort).1, fun hm => ?_⟩
  · rw [execPush_eq hwf]
    exact concludeTransfer_of_part _ ha (State.storeWords_of_accessFaults hw hk) hp
  · obtain ⟨-, hout, hnum⟩ := hpart hm hshort
    exact stoppedTransfer_of_stored hlen
      (fun k _ h' _ => (List.getElem_of_eq hws h').trans (List.getElem_map _)) hout hnum

/-- A multiple transfer that a bus error stops raises HardFault after a part of it (D9). -/
theorem MultipleAccess.raisesAfter {s : State} {i : Instr} {kind : AccessKind} {base : Word} {rs : List Reg}
    (h : MultipleAccess s i kind base rs) (ha : aligned base 4 = true) (hf : s.transferFaults kind base rs.length) :
    ∃ p, RaisesAfter s p i kind base rs := by
  cases h with
  | ldm rn list hl => exact ldm_raisesAfter hl ha (by simpa using hf)
  | stm rn list hl => exact stm_raisesAfter hl ha (by simpa using hf)
  | push lr list hwf => exact push_raisesAfter hwf hf
  | pop pc list hwf => exact pop_raisesAfter hwf hf

/-- A multiple transfer from a misaligned base raises HardFault, and nothing else (R136). -/
theorem MultipleAccess.exec_of_unaligned {s : State} {i : Instr} {kind : AccessKind} {base : Word} {rs : List Reg}
    (h : MultipleAccess s i kind base rs) (ha : aligned base 4 = false) : ∃ c, exec i s = raiseHardFault c s s := by
  have hw (n : Nat) : s.WordsOrFaults kind base n := fun k _ => .inr (State.accessFaults_of_unaligned ha k)
  cases h with
  | ldm rn list hl =>
    rw [execLdm_eq hl]
    exact concludeTransfer_of_unaligned _ ha (State.loadRegisters_of_accessFaults (hw _)
      ⟨0, List.length_pos_of_ne_nil (registersOf_ne_nil hl), State.accessFaults_of_unaligned ha 0⟩)
  | stm rn list hl =>
    obtain ⟨ws, fi, hws, hlen, -⟩ := s.stmWords_eq rn (registersOf list)
    have hpos : 0 < ws.length := by
      rw [hlen]
      exact List.length_pos_of_ne_nil (registersOf_ne_nil hl)
    rw [execStm_eq hl hws]
    exact concludeTransfer_of_unaligned _ ha (State.storeWords_of_accessFaults (s := { s with freeIndex := fi }) (hw _)
      ⟨0, hpos, State.accessFaults_of_unaligned ha 0⟩)
  | push lr list hwf =>
    exact absurd ((alignWord_eq_self_iff _).1 (s.alignWord_sp_sub _)) (aligned_eq_false_iff.1 ha)
  | pop pc list hwf => exact absurd s.sp_mod_four (aligned_eq_false_iff.1 ha)

/-! ## HardFault is entered -/

/-- Settles O22: a misaligned access faults before it is made. -/
theorem unalignedAccessFaults : Obligations.UnalignedAccessFaults := by
  intro s i hi hm hp he
  have entered (h : ∃ c, exec i s = raiseHardFault c s s) : ∃ t, exec i s = .next t ∧ Entered s t 3 s.pc := by
    obtain ⟨c, hc⟩ := h
    rw [hc]
    exact raiseHardFault_entered c hm hp he
  have single {kind : AccessKind} {a : Word} {n : Nat} (h : SingleAccess s i kind a n) (ha : a.toNat % n ≠ 0) :=
    entered (h.exec_eq_raiseHardFault (.inl (aligned_eq_false_iff.2 ha)))
  have multiple {kind : AccessKind} {base : Word} {rs : List Reg} (h : MultipleAccess s i kind base rs)
      (ha : base.toNat % 4 ≠ 0) := entered (h.exec_of_unaligned (aligned_eq_false_iff.2 ha))
  rcases hi with ⟨rt, rn, imm5, rfl | rfl, ha⟩ | ⟨rt, rn, imm5, rfl | rfl, ha⟩ | ⟨rt, rn, rm, rfl | rfl, ha⟩ |
    ⟨rt, rn, rm, rfl | rfl | rfl, ha⟩ | ⟨rn, list, rfl, hl, ha⟩ | ⟨rn, list, rfl, hl, ha⟩
  · exact single (.ldrImm rt rn imm5) ha
  · exact single (.strImm rt rn imm5) ha
  · exact single (.ldrhImm rt rn imm5) ha
  · exact single (.strhImm rt rn imm5) ha
  · exact single (.ldrReg rt rn rm) ha
  · exact single (.strReg rt rn rm) ha
  · exact single (.ldrhReg rt rn rm) ha
  · exact single (.ldrshReg rt rn rm) ha
  · exact single (.strhReg rt rn rm) ha
  · exact multiple (.ldm rn list hl) ha
  · exact multiple (.stm rn list hl) ha

theorem TransferOnly.executionPriority {s p : State} (h : TransferOnly s p) :
    p.executionPriority = s.executionPriority := by
  rw [h]
  rfl

theorem TransferOnly.canEnter {s p : State} (h : TransferOnly s p) (e : Nat) : p.canEnter e = s.canEnter e := by
  rw [h]
  rfl

/-- Settles O23: the fault of a single access, and the fault after a part of a transfer. -/
theorem busErrorFaults : Obligations.BusErrorFaults := by
  refine fun s hm hp he => ⟨fun i kind a n h hf => ?_, fun i kind base rs h ha hf => ?_⟩
  · obtain ⟨c, hc⟩ := h.exec_eq_raiseHardFault hf
    rw [hc]
    exact raiseHardFault_entered c hm hp he
  · obtain ⟨p, ⟨c, hc⟩, hq, hwf, hstop⟩ := h.raisesAfter ha hf
    obtain ⟨t, ht, hent⟩ := raiseHardFault_entered (f := s) c (hwf hm) (by rwa [hq.executionPriority])
      ((hq.canEnter 3).trans he)
    exact ⟨p, t, hc.trans ht, hstop hm, hent⟩

/-! ## Lockup (R445) -/

/-- While HardFault is active the priority is -1 or higher (R420). -/
theorem State.executionPriority_of_hardFault {s : State} (h : s.isActive 3 = true ∨ s.executionPriority ≤ -1) :
    s.executionPriority ≤ -1 := by
  rcases h with h | h
  · have ha : s.activePriority ≤ -1 := by
      by_contra hlt
      exact absurd ((State.lt_activePriority_iff.1 (Int.not_le.1 hlt)).1 3 (by decide) h) (lt_irrefl (-1 : Int))
    have h0 : ¬0 < s.activePriority := by omega
    simpa [State.executionPriority, h0] using ha
  · exact h

theorem raiseHardFault_of_le {c : FaultCause} {f s : State} (h : s.executionPriority ≤ -1) :
    raiseHardFault c f s = .next (f.lockedUp s) := if_pos h

/-- At that priority no exception is taken: NMI is never enabled (R405, R425). -/
theorem State.nextException_of_le {s : State} (h : s.executionPriority ≤ -1) : s.nextException = none := by
  cases hn : s.nextException with
  | none => rfl
  | some e =>
    exfalso
    obtain ⟨hmem, htake, -⟩ := State.nextException_eq_some hn
    obtain ⟨-, hen, hlt⟩ := State.takeable_iff.1 htake
    by_cases h3 : e = 3
    · subst h3
      have : s.priority 3 = -1 := rfl
      omega
    · obtain ⟨b, hb, -⟩ := s.priority_eq_byte hmem (State.isEnabled_ne_two hen) h3
      omega

/-- SVC is one of the instructions that fault at that priority (R370). -/
theorem execSvc_of_le {s : State} (imm8 : BitVec 8) (h : s.executionPriority ≤ -1) :
    exec (.svc imm8) s = raiseHardFault .svcPriority s s := by
  have h11 : (0 : Int) ≤ s.priority 11 := Int.natCast_nonneg _
  exact if_pos (by omega)

/-- Settles O39: all these instructions, and the fetch, raise HardFault, and no exception comes before. -/
theorem faultInHandlerLocksUp : Obligations.FaultInHandlerLocksUp := by
  refine ⟨fun s hs => ?_, fun s => ?_⟩
  · have hp := State.executionPriority_of_hardFault hs
    have locks {i : Instr} (h : ∃ c, exec i s = raiseHardFault c s s) : exec i s = .next { s with lockup := true } := by
      obtain ⟨c, hc⟩ := h
      exact hc.trans (raiseHardFault_of_le hp)
    refine ⟨fun imm8 imm16 i hi => ?_, fun i kind a n h hf => locks (h.exec_eq_raiseHardFault hf),
      fun i kind base rs h => ⟨fun ha => locks (h.exec_of_unaligned ha), fun ha hf => ?_⟩⟩
    · simp only [List.mem_cons, List.not_mem_nil, or_false] at hi
      rcases hi with rfl | rfl | rfl | rfl
      · exact locks ⟨.breakpoint, rfl⟩
      · exact locks ⟨.undefined, rfl⟩
      · exact locks ⟨.undefined, rfl⟩
      · exact locks ⟨_, execSvc_of_le imm8 hp⟩
    · obtain ⟨p, ⟨c, hc⟩, hq, -, -⟩ := h.raisesAfter ha hf
      exact ⟨p.stored, hc.trans (raiseHardFault_of_le (by rwa [hq.executionPriority]))⟩
  · dsimp only
    intro hr hl hsleep hs hf
    have hp := State.executionPriority_of_hardFault hs
    obtain ⟨c, hc⟩ := State.fetchInstr_of_instrFaults hf
    rw [step_eq_runInstr hr hl hsleep (.inr (State.nextException_of_le hp)), State.runInstr, hc]
    exact raiseHardFault_of_le (c := c) hp

end Sys2Proof.Machine
end

section
/-!
SUPPORT. Words that are fields side by side, and words compared under a mask: the two ways in which 30_encoding.md R182
writes an encoding.
-/

namespace Sys2Proof

theorem append_eq_iff {a b : Nat} {x : BitVec a} {y : BitVec b} {w : BitVec (a + b)} :
    x ++ y = w ↔ w.extractLsb' b a = x ∧ w.extractLsb' 0 b = y := by
  constructor
  · rintro rfl
    exact ⟨BitVec.extractLsb'_append_eq_left, BitVec.extractLsb'_append_eq_right⟩
  · rintro ⟨rfl, rfl⟩
    rw [BitVec.extractLsb'_append_extractLsb'_eq_extractLsb' (Nat.zero_add b).symm, BitVec.extractLsb'_eq_self]

theorem and_append_eq_iff {a b : Nat} {w : BitVec (a + b)} {m p : BitVec a} {n q : BitVec b} :
    w &&& (m ++ n) = p ++ q ↔ w.extractLsb' b a &&& m = p ∧ w.extractLsb' 0 b &&& n = q := by
  conv_lhs => rw [← (append_eq_iff (w := w)).2 ⟨rfl, rfl⟩, BitVec.and_append]
  rw [append_eq_iff]
  simp only [BitVec.extractLsb'_append_eq_left, BitVec.extractLsb'_append_eq_right]
  exact and_congr eq_comm eq_comm

theorem extractLsb'_extractLsb' {n : Nat} (w : BitVec n) {s l t k : Nat} (h : t + k ≤ l) :
    (w.extractLsb' s l).extractLsb' t k = w.extractLsb' (s + t) k := by
  apply BitVec.eq_of_getElem_eq
  intro i hi
  simp [BitVec.getElem_extractLsb', show t + i < l by omega, Nat.add_assoc]

/-! ## An opcode `op` above fields: the mask has ones at the fixed bits -/

section
variable {a b c d : Nat} {op : BitVec a} {x : BitVec b} {y : BitVec c} {z : BitVec d}

/-- The opcode alone. -/
theorem opcode_iff {w : BitVec (a + b)} :
    w &&& (BitVec.allOnes a ++ 0#b) = op ++ 0#b ↔ w.extractLsb' b a = op := by
  rw [and_append_eq_iff]
  simp

theorem opcode_field_iff {w : BitVec (a + b)} :
    op ++ x = w ↔ w &&& (BitVec.allOnes a ++ 0#b) = op ++ 0#b ∧ w.extractLsb' 0 b = x := by
  rw [append_eq_iff, and_append_eq_iff]
  simp

theorem opcode_field_field_iff {w : BitVec (a + b + c)} :
    op ++ x ++ y = w ↔ w &&& (BitVec.allOnes a ++ 0#b ++ 0#c) = op ++ 0#b ++ 0#c ∧
      w.extractLsb' c b = x ∧ w.extractLsb' 0 c = y := by
  rw [append_eq_iff, and_append_eq_iff, eq_comm, opcode_field_iff, extractLsb'_extractLsb' _ (by omega)]
  simp [and_assoc]

theorem opcode_field_field_field_iff {w : BitVec (a + b + c + d)} :
    op ++ x ++ y ++ z = w ↔ w &&& (BitVec.allOnes a ++ 0#b ++ 0#c ++ 0#d) = op ++ 0#b ++ 0#c ++ 0#d ∧
      w.extractLsb' (c + d) b = x ∧ w.extractLsb' d c = y ∧ w.extractLsb' 0 d = z := by
  rw [append_eq_iff, and_append_eq_iff, eq_comm, opcode_field_field_iff, extractLsb'_extractLsb' _ (by omega),
    extractLsb'_extractLsb' _ (by omega)]
  simp [and_assoc, Nat.add_comm]

/-- `y` is fixed too. -/
theorem opcode_field_fixed_iff {w : BitVec (a + b + c)} :
    op ++ x ++ y = w ↔
      w &&& (BitVec.allOnes a ++ 0#b ++ BitVec.allOnes c) = op ++ 0#b ++ y ∧ w.extractLsb' c b = x := by
  rw [append_eq_iff, and_append_eq_iff, eq_comm, opcode_field_iff, extractLsb'_extractLsb' _ (by omega)]
  simp [and_right_comm]

/-- `y` is fixed too. -/
theorem opcode_field_fixed_field_field_iff {e : Nat} {v : BitVec e} {w : BitVec (a + b + c + d + e)} :
    op ++ x ++ y ++ z ++ v = w ↔
      w &&& (BitVec.allOnes a ++ 0#b ++ BitVec.allOnes c ++ 0#d ++ 0#e) = op ++ 0#b ++ y ++ 0#d ++ 0#e ∧
      w.extractLsb' (c + d + e) b = x ∧ w.extractLsb' e d = z ∧ w.extractLsb' 0 e = v := by
  rw [append_eq_iff, and_append_eq_iff, eq_comm, append_eq_iff, and_append_eq_iff, eq_comm (b := op ++ x ++ y),
    opcode_field_fixed_iff, extractLsb'_extractLsb' _ (by omega), extractLsb'_extractLsb' _ (by omega),
    extractLsb'_extractLsb' _ (by omega)]
  simp [and_assoc, Nat.add_comm, Nat.add_left_comm]

/-- Five fields and no opcode. -/
theorem five_fields_iff {e : Nat} {u : BitVec a} {v : BitVec e} {w : BitVec (a + b + c + d + e)} :
    u ++ x ++ y ++ z ++ v = w ↔ w.extractLsb' (b + c + d + e) a = u ∧ w.extractLsb' (c + d + e) b = x ∧
      w.extractLsb' (d + e) c = y ∧ w.extractLsb' e d = z ∧ w.extractLsb' 0 e = v := by
  rw [append_eq_iff, eq_comm (b := u ++ x ++ y ++ z), append_eq_iff, eq_comm (b := u ++ x ++ y), append_eq_iff,
    eq_comm (b := u ++ x), append_eq_iff]
  simp (disch := omega) only [extractLsb'_extractLsb']
  simp [and_assoc, Nat.add_comm, Nat.add_left_comm]

end

/-! ## Masks -/

section
variable {w m p k q : Halfword}

/-- Two comparisons of one halfword agree where both masks are set. -/
theorem and_eq_and_of_match (hw : w &&& m = p) (h : w &&& k = q) : p &&& k = q &&& m := by
  rw [← hw, ← h, BitVec.and_assoc, BitVec.and_comm m, ← BitVec.and_assoc]

/-- A comparison under a mask gives those under the masks inside it. -/
theorem and_eq_of_submask (hw : w &&& m = p) (hk : k &&& m = k) (hp : p &&& k = q) : w &&& k = q := by
  rw [← hp, ← hw, BitVec.and_assoc, BitVec.and_comm m, hk]

end

end Sys2Proof
end

section
/-!
SUPPORT. Each format of 30_encoding.md R186 to R197: a word is the encoding of some operands exactly when its fixed bits
are the opcode's and the decoder's fields of it are the operands.
-/

namespace Sys2Proof

/-! ## Fields -/

theorem eq_lowBits_iff {r : LowReg} {x : BitVec 3} : x = lowBits r ↔ x.toFin = r :=
  ⟨fun h => h ▸ rfl, fun h => h ▸ rfl⟩

theorem eq_regBits_iff {r : Reg} {x : BitVec 4} : x = regBits r ↔ x.toFin = r :=
  ⟨fun h => h ▸ rfl, fun h => h ▸ rfl⟩

theorem extractLsb'_eq_ofBool_iff {w : Halfword} {k : Nat} {b : Bool} :
    w.extractLsb' k 1 = BitVec.ofBool b ↔ w.getLsbD k = b := by
  constructor
  · intro h
    simpa using congrArg (·.getLsbD 0) h
  · rintro rfl
    apply BitVec.eq_of_getLsbD_eq
    intro i hi
    obtain rfl : i = 0 := by omega
    simp

/-- The register `D:Rd` of the high-register group (R188). -/
theorem splitReg_eq_iff {w : Halfword} {r : Reg} : splitReg w = r ↔
    w.extractLsb' 7 1 = (regBits r).extractLsb' 3 1 ∧ w.extractLsb' 0 3 = (regBits r).extractLsb' 0 3 := by
  rw [splitReg, ← eq_regBits_iff]
  exact (append_eq_iff (a := 1) (b := 3)).trans (and_congr eq_comm eq_comm)

theorem condOf_eq_some_iff {b : BitVec 4} {c : Cond} : condOf b = some c ↔ b = condBits c := by
  constructor
  · revert b
    cases c <;> decide
  · rintro rfl
    cases c <;> rfl

theorem specRegOf_eq_some_iff {b : BitVec 8} {r : SpecReg} : specRegOf b = some r ↔ b = specRegBits r := by
  constructor
  · intro h
    apply BitVec.eq_of_toNat_eq
    unfold specRegOf at h
    split at h <;> cases h <;> assumption
  · rintro rfl
    cases r <;> rfl

theorem eq_iff_and_allOnes {v w : Halfword} : v = w ↔ w &&& 0xFFFF = v := by
  rw [show w &&& 0xFFFF = w from BitVec.and_allOnes, eq_comm]

/-! ## The 16-bit formats -/

section
variable {w : Halfword}

theorem encode2_eq_iff {op : BitVec 10} {rm rd : LowReg} :
    encode2 op rm rd = [w] ↔ w &&& 0xFFC0 = op ++ 0#3 ++ 0#3 ∧ lowField w 3 = rm ∧ lowField w 0 = rd :=
  List.singleton_inj.trans (opcode_field_field_iff.trans (and_congr .rfl (and_congr eq_lowBits_iff eq_lowBits_iff)))

theorem encode3_eq_iff {op : BitVec 7} {rm rn rd : LowReg} :
    encode3 op rm rn rd = [w] ↔ w &&& 0xFE00 = op ++ 0#3 ++ 0#3 ++ 0#3 ∧
      lowField w 6 = rm ∧ lowField w 3 = rn ∧ lowField w 0 = rd :=
  List.singleton_inj.trans (opcode_field_field_field_iff.trans
    (and_congr .rfl (and_congr eq_lowBits_iff (and_congr eq_lowBits_iff eq_lowBits_iff))))

theorem encodeImm3_eq_iff {op : BitVec 7} {imm3 : BitVec 3} {rn rd : LowReg} :
    [op ++ imm3 ++ lowBits rn ++ lowBits rd] = [w] ↔ w &&& 0xFE00 = op ++ 0#3 ++ 0#3 ++ 0#3 ∧
      w.extractLsb' 6 3 = imm3 ∧ lowField w 3 = rn ∧ lowField w 0 = rd :=
  List.singleton_inj.trans (opcode_field_field_field_iff.trans
    (and_congr .rfl (and_congr .rfl (and_congr eq_lowBits_iff eq_lowBits_iff))))

theorem encodeImm5_eq_iff {op imm5 : BitVec 5} {rn rd : LowReg} :
    encodeImm5 op imm5 rn rd = [w] ↔ w &&& 0xF800 = op ++ 0#5 ++ 0#3 ++ 0#3 ∧
      w.extractLsb' 6 5 = imm5 ∧ lowField w 3 = rn ∧ lowField w 0 = rd :=
  List.singleton_inj.trans (opcode_field_field_field_iff.trans
    (and_congr .rfl (and_congr .rfl (and_congr eq_lowBits_iff eq_lowBits_iff))))

theorem encodeImm8_eq_iff {op : BitVec 5} {rd : LowReg} {imm8 : BitVec 8} :
    encodeImm8 op rd imm8 = [w] ↔ w &&& 0xF800 = op ++ 0#3 ++ 0#8 ∧ lowField w 8 = rd ∧ w.extractLsb' 0 8 = imm8 :=
  List.singleton_inj.trans (opcode_field_field_iff.trans (and_congr .rfl (and_congr eq_lowBits_iff .rfl)))

theorem encodeHigh_eq_iff {op : BitVec 8} {rd rm : Reg} :
    encodeHigh op rd rm = [w] ↔ w &&& 0xFF00 = op ++ 0#1 ++ 0#4 ++ 0#3 ∧ splitReg w = rd ∧ regField w 3 = rm := by
  rw [splitReg_eq_iff, and_assoc, and_comm (a := _ = (regBits rd).extractLsb' 0 3)]
  exact List.singleton_inj.trans (opcode_field_field_field_iff.trans
    (and_congr .rfl (and_congr .rfl (and_congr eq_regBits_iff .rfl))))

/-- BX and BLX, whose bits below the register are should-be-zero (R188). -/
theorem encodeExchange_eq_iff {op : BitVec 9} {rm : Reg} :
    [op ++ regBits rm ++ 0b000#3] = [w] ↔ w &&& 0xFF87 = op ++ 0#4 ++ 0b000#3 ∧ regField w 3 = rm :=
  List.singleton_inj.trans (opcode_field_fixed_iff.trans (and_congr .rfl eq_regBits_iff))

/-- PUSH and POP, whose bit 8 is LR or PC (R191). -/
theorem encodeList_eq_iff {op : BitVec 7} {r : Bool} {list : BitVec 8} : [op ++ BitVec.ofBool r ++ list] = [w] ↔
    w &&& 0xFE00 = op ++ 0#1 ++ 0#8 ∧ w.getLsbD 8 = r ∧ w.extractLsb' 0 8 = list :=
  List.singleton_inj.trans (opcode_field_field_iff.trans (and_congr .rfl (and_congr extractLsb'_eq_ofBool_iff .rfl)))

theorem encodeCond_eq_iff {c : Cond} {imm8 : BitVec 8} : encode (.bCond c imm8) = [w] ↔
    w &&& 0xF000 = 0xD000 ∧ condOf (w.extractLsb' 8 4) = some c ∧ w.extractLsb' 0 8 = imm8 :=
  List.singleton_inj.trans (opcode_field_field_iff.trans
    (and_congr .rfl (and_congr condOf_eq_some_iff.symm .rfl)))

/-- No operand. -/
theorem encodeFixed_eq_iff {op : Halfword} : [op] = [w] ↔ w &&& 0xFFFF = op :=
  List.singleton_inj.trans eq_iff_and_allOnes

/-- An immediate as the only operand. -/
theorem encodeImm_eq_iff {a b : Nat} {op : BitVec a} {imm : BitVec b} {w : BitVec (a + b)} :
    [op ++ imm] = [w] ↔ w &&& (BitVec.allOnes a ++ 0#b) = op ++ 0#b ∧ w.extractLsb' 0 b = imm :=
  List.singleton_inj.trans opcode_field_iff

end

/-! ## The 32-bit formats -/

section
variable {hw1 hw2 : Halfword}

theorem pair_eq_iff {x y : Halfword} : [x, y] = [hw1, hw2] ↔ x = hw1 ∧ y = hw2 := by simp

/-- `J = NOT(I EOR S)` and `I = NOT(J EOR S)` say the same (R197). -/
theorem eq_not_xor_iff {i j s : BitVec 1} : j = ~~~(i ^^^ s) ↔ ~~~(j ^^^ s) = i := by
  revert i j s
  decide

theorem blOffset_eq_iff {off : BitVec 24} : blOffset hw1 hw2 = off ↔
    off.extractLsb' 23 1 = hw1.extractLsb' 10 1 ∧
    off.extractLsb' 22 1 = ~~~(hw2.extractLsb' 13 1 ^^^ hw1.extractLsb' 10 1) ∧
    off.extractLsb' 21 1 = ~~~(hw2.extractLsb' 11 1 ^^^ hw1.extractLsb' 10 1) ∧
    off.extractLsb' 11 10 = hw1.extractLsb' 0 10 ∧ off.extractLsb' 0 11 = hw2.extractLsb' 0 11 :=
  five_fields_iff

theorem encodeBl_eq_iff {off : BitVec 24} : encodeBl off = [hw1, hw2] ↔
    hw1 &&& 0xF800 = 0xF000 ∧ hw2 &&& 0xD000 = 0xD000 ∧ blOffset hw1 hw2 = off := by
  have h1 : _ ↔ hw1 &&& 0xF800 = 0xF000 ∧ _ :=
    opcode_field_field_iff (op := 0b11110#5) (x := off.extractLsb' 23 1) (y := off.extractLsb' 11 10)
  have h2 (j1 j2 : BitVec 1) : _ ↔ hw2 &&& 0xD000 = 0xD000 ∧ _ := opcode_field_fixed_field_field_iff
    (op := 0b11#2) (x := j1) (y := 0b1#1) (z := j2) (v := off.extractLsb' 0 11)
  refine (pair_eq_iff.trans (and_congr h1 (h2 _ _))).trans ?_
  rw [blOffset_eq_iff, eq_not_xor_iff, eq_not_xor_iff]
  constructor
  · rintro ⟨⟨hm1, hs, hhi⟩, hm2, hj1, hj2, hlo⟩
    rw [hs]
    exact ⟨hm1, hm2, rfl, hj1.symm, hj2.symm, hhi.symm, hlo.symm⟩
  · rintro ⟨hm1, hm2, hs, hj1, hj2, hhi, hlo⟩
    rw [hs]
    exact ⟨⟨hm1, rfl, hhi.symm⟩, hm2, hj1.symm, hj2.symm, hlo.symm⟩

theorem encodeMsr_eq_iff {r : SpecReg} {rn : Reg} : encode (.msr r rn) = [hw1, hw2] ↔
    (hw1 &&& 0xFFF0 = 0xF380 ∧ regField hw1 0 = rn) ∧
      hw2 &&& 0xFF00 = 0x8800 ∧ specRegOf (hw2.extractLsb' 0 8) = some r :=
  pair_eq_iff.trans (and_congr (opcode_field_iff.trans (and_congr .rfl eq_regBits_iff))
    (opcode_field_iff.trans (and_congr .rfl specRegOf_eq_some_iff.symm)))

theorem encodeMrs_eq_iff {r : SpecReg} {rd : Reg} : encode (.mrs rd r) = [hw1, hw2] ↔
    hw1 &&& 0xFFFF = 0xF3EF ∧ hw2 &&& 0xF000 = 0x8000 ∧ regField hw2 8 = rd ∧
      specRegOf (hw2.extractLsb' 0 8) = some r :=
  pair_eq_iff.trans (and_congr eq_iff_and_allOnes (opcode_field_field_iff.trans
    (and_congr .rfl (and_congr eq_regBits_iff specRegOf_eq_some_iff.symm))))

/-- DSB, DMB and ISB. -/
theorem encodeBarrier_eq_iff {op : BitVec 12} {option : BitVec 4} : [0xF3BF, op ++ option] = [hw1, hw2] ↔
    hw1 &&& 0xFFFF = 0xF3BF ∧ hw2 &&& 0xFFF0 = op ++ 0#4 ∧ hw2.extractLsb' 0 4 = option :=
  pair_eq_iff.trans (and_congr eq_iff_and_allOnes opcode_field_iff)

theorem encodeUdfW_eq_iff {imm16 : BitVec 16} : encode (.udfW imm16) = [hw1, hw2] ↔
    hw1 &&& 0xFFF0 = 0xF7F0 ∧ hw2 &&& 0xF000 = 0xA000 ∧ hw1.extractLsb' 0 4 ++ hw2.extractLsb' 0 12 = imm16 := by
  have himm : hw1.extractLsb' 0 4 ++ hw2.extractLsb' 0 12 = imm16 ↔
      hw1.extractLsb' 0 4 = imm16.extractLsb' 12 4 ∧ hw2.extractLsb' 0 12 = imm16.extractLsb' 0 12 :=
    (append_eq_iff (a := 4) (b := 12)).trans (and_congr eq_comm eq_comm)
  refine (pair_eq_iff.trans (and_congr opcode_field_iff opcode_field_iff)).trans ?_
  rw [himm, and_and_and_comm, and_assoc]
  rfl

end

end Sys2Proof
end

section
/-!
SUPPORT. The opcode tables (30_encoding.md R182 to R208): the row that reads an encoding, and what each row reads.
-/

namespace Sys2Proof

/-! ## The row that reads a word -/

/-- The first element that meets a stronger predicate, where the first that meets the weaker one meets both. -/
theorem find?_eq_some_of_imp {α : Type} {p q : α → Bool} {l : List α} {a : α} (h : ∀ x, p x = true → q x = true)
    (hq : l.find? q = some a) (hp : p a = true) : l.find? p = some a := by
  obtain ⟨-, before, after, hl, hno⟩ := List.find?_eq_some_iff_append.1 hq
  refine List.find?_eq_some_iff_append.2 ⟨hp, before, after, hl, fun x hx => ?_⟩
  have hqx : q x = false := by simpa using hno x hx
  simpa [hqx] using h x

/-- Whether a row can cover a halfword of which the bits in the mask `m` are `p`. -/
def Row16.mayCover (m p : Halfword) (r : Row16) : Bool :=
  p &&& (r.mask &&& ~~~r.shouldBe) == r.pattern &&& ~~~r.shouldBe &&& m

/-- Whether a row can cover a pair of halfwords of which the bits in the masks `m` are `p`. -/
def Row32.mayCover (m p : Halfword × Halfword) (r : Row32) : Bool :=
  p.1 &&& (r.mask.1 &&& ~~~r.shouldBe.1) == r.pattern.1 &&& ~~~r.shouldBe.1 &&& m.1
    && p.2 &&& (r.mask.2 &&& ~~~r.shouldBe.2) == r.pattern.2 &&& ~~~r.shouldBe.2 &&& m.2

theorem Row16.mayCover_of_covers {r : Row16} {m p w : Halfword} (hw : w &&& m = p) (h : r.covers w = true) :
    r.mayCover m p = true := by
  simp only [Row16.covers, Row16.mayCover, beq_iff_eq] at h ⊢
  exact and_eq_and_of_match hw h

theorem Row32.mayCover_of_covers {r : Row32} {m p : Halfword × Halfword} {hw1 hw2 : Halfword}
    (h1 : hw1 &&& m.1 = p.1) (h2 : hw2 &&& m.2 = p.2) (h : r.covers hw1 hw2 = true) : r.mayCover m p = true := by
  simp only [Row32.covers, Row32.mayCover, Bool.and_eq_true, beq_iff_eq] at h ⊢
  exact h.imp (and_eq_and_of_match h1) (and_eq_and_of_match h2)

theorem Row16.covers_of_match {r : Row16} {w : Halfword} (h : w &&& r.mask = r.pattern) : r.covers w = true := by
  simp only [Row16.covers, beq_iff_eq, ← h, BitVec.and_assoc]

theorem Row32.covers_of_match {r : Row32} {hw1 hw2 : Halfword} (h1 : hw1 &&& r.mask.1 = r.pattern.1)
    (h2 : hw2 &&& r.mask.2 = r.pattern.2) : r.covers hw1 hw2 = true := by
  simp only [Row32.covers, Bool.and_eq_true, beq_iff_eq, ← h1, ← h2, BitVec.and_assoc, and_self]

theorem decode16_of_find? {r : Row16} {w : Halfword} (hr : table16.find? (fun r => r.covers w) = some r)
    (hw : w &&& r.mask = r.pattern) : decode16 w = r.read w := by
  simp [decode16, hr, Row16.decode, hw]

/-- A halfword is read by the first row that can cover what is known of it, if that row's fixed bits are known. -/
theorem decode16_eq_read {r : Row16} {m p w : Halfword} (hw : w &&& m = p)
    (hr : table16.find? (Row16.mayCover m p) = some r) (hm : r.mask &&& m = r.mask ∧ p &&& r.mask = r.pattern) :
    decode16 w = r.read w := by
  obtain ⟨hmask, hp⟩ := hm
  have hmatch : w &&& r.mask = r.pattern := and_eq_of_submask hw hmask hp
  exact decode16_of_find?
    (find?_eq_some_of_imp (fun _ => Row16.mayCover_of_covers hw) hr (Row16.covers_of_match hmatch)) hmatch

/-- A halfword of which enough is known that no row can cover it. -/
theorem decode16_eq_undefined {m p w : Halfword} (hw : w &&& m = p)
    (hno : table16.find? (Row16.mayCover m p) = none) : decode16 w = .error .undefined := by
  have hfind : table16.find? (fun r => r.covers w) = none :=
    List.find?_eq_none.2 fun r hr hc => List.find?_eq_none.1 hno r hr (Row16.mayCover_of_covers hw hc)
  rw [decode16, hfind]

/-- A pair is read by the first row that can cover its fixed bits. -/
theorem decode32_eq_read {r : Row32} {m1 m2 p1 p2 hw1 hw2 : Halfword} (h1 : hw1 &&& m1 = p1) (h2 : hw2 &&& m2 = p2)
    (hr : table32.find? (Row32.mayCover (m1, m2) (p1, p2)) = some r) (hm : r.mask = (m1, m2))
    (hp : r.pattern = (p1, p2)) : decode32 hw1 hw2 = r.read hw1 hw2 := by
  have hmatch1 : hw1 &&& r.mask.1 = r.pattern.1 := by rw [hm, hp, h1]
  have hmatch2 : hw2 &&& r.mask.2 = r.pattern.2 := by rw [hm, hp, h2]
  have hfind : table32.find? (fun r => r.covers hw1 hw2) = some r :=
    find?_eq_some_of_imp (fun _ => Row32.mayCover_of_covers h1 h2) hr (Row32.covers_of_match hmatch1 hmatch2)
  simp [decode32, hfind, Row32.decode, hmatch1, hmatch2]

/-! ## Encodings are read as what they encode -/

/-- LSLS by an immediate stands after MOVS, which covers its words with a zero immediate (R201). -/
theorem decode16_lslsImm {rd rm : LowReg} {imm5 : BitVec 5} {w : Halfword} (himm : imm5 ≠ 0)
    (h : encode (.lslsImm rd rm imm5) = [w]) : decode16 w = defined (.lslsImm rd rm imm5) := by
  obtain ⟨hm, rfl, rfl, rfl⟩ := encodeImm5_eq_iff.1 h
  refine decode16_of_find? ((List.find?_cons_of_neg fun hmov => himm ?_).trans
    (List.find?_cons_of_pos (Row16.covers_of_match hm))) hm
  have htop : w.extractLsb' 6 10 = 0b00000#5 ++ 0#5 := (opcode_iff (a := 10) (b := 6)).1 (beq_iff_eq.1 hmov)
  exact (extractLsb'_extractLsb' w (by decide)).symm.trans (append_eq_iff.1 htop.symm).2

/-- B<cond> stands after UDF and SVC, whose words have no condition (R194). -/
theorem decode16_bCond {c : Cond} {imm8 : BitVec 8} {w : Halfword} (h : encode (.bCond c imm8) = [w]) :
    decode16 w = defined (.bCond c imm8) := by
  have hm := ((encodeImm_eq_iff (op := 0b1101#4 ++ condBits c)).1 h).1
  obtain ⟨-, hc, rfl⟩ := encodeCond_eq_iff.1 h
  cases c <;> exact (decode16_eq_read hm rfl ⟨rfl, rfl⟩).trans (by simp only [hc])

/-- Format by format; the first row that can cover the opcode is found by evaluation. -/
theorem decode16_of_encode {i : Instr} {w : Halfword} (h : encode i = [w]) (hi : i.wellFormed = true) :
    decode16 w = defined i := by
  cases i with
  | lslsImm rd rm imm5 => exact decode16_lslsImm (by simpa [Instr.wellFormed] using hi) h
  | bCond c imm8 => exact decode16_bCond h
  | movsReg | ands | eors | lslsReg | lsrsReg | asrsReg | adcs | sbcs | rors | tst | rsbs | cmpLow | cmn | orrs | muls
  | bics | mvns | sxth | sxtb | uxth | uxtb | rev | rev16 | revsh =>
    obtain ⟨hm, rfl, rfl⟩ := encode2_eq_iff.1 h
    exact decode16_eq_read hm rfl ⟨rfl, rfl⟩
  | addsReg | subsReg | strReg | strhReg | strbReg | ldrsbReg | ldrReg | ldrhReg | ldrbReg | ldrshReg =>
    obtain ⟨hm, rfl, rfl, rfl⟩ := encode3_eq_iff.1 h
    exact decode16_eq_read hm rfl ⟨rfl, rfl⟩
  | addsImm3 | subsImm3 =>
    obtain ⟨hm, rfl, rfl, rfl⟩ := encodeImm3_eq_iff.1 h
    exact decode16_eq_read hm rfl ⟨rfl, rfl⟩
  | lsrsImm | asrsImm | strImm | ldrImm | strbImm | ldrbImm | strhImm | ldrhImm =>
    obtain ⟨hm, rfl, rfl, rfl⟩ := encodeImm5_eq_iff.1 h
    exact decode16_eq_read hm rfl ⟨rfl, rfl⟩
  | movsImm | cmpImm | addsImm8 | subsImm8 | ldrLit | strSp | ldrSp | adr | addRdSp | stm | ldm =>
    obtain ⟨hm, rfl, rfl⟩ := encodeImm8_eq_iff.1 h
    exact decode16_eq_read hm rfl ⟨rfl, rfl⟩
  | addHigh | cmpHigh | movHigh =>
    obtain ⟨hm, rfl, rfl⟩ := encodeHigh_eq_iff.1 h
    exact decode16_eq_read hm rfl ⟨rfl, rfl⟩
  | bx | blx =>
    obtain ⟨hm, rfl⟩ := encodeExchange_eq_iff.1 h
    exact decode16_eq_read hm rfl ⟨rfl, rfl⟩
  | push | pop =>
    obtain ⟨hm, rfl, rfl⟩ := encodeList_eq_iff.1 h
    exact decode16_eq_read hm rfl ⟨rfl, rfl⟩
  | addSp | subSp | bkpt | udf | svc | b =>
    obtain ⟨hm, rfl⟩ := encodeImm_eq_iff.1 h
    exact decode16_eq_read hm rfl ⟨rfl, rfl⟩
  | cpsie | cpsid | nop | yield | wfe | wfi | sev =>
    exact decode16_eq_read (encodeFixed_eq_iff.1 h) rfl ⟨rfl, rfl⟩
  | bl | msr | mrs | dsb | dmb | isb | udfW => cases h

theorem decode32_of_encode {i : Instr} {hw1 hw2 : Halfword} (h : encode i = [hw1, hw2]) :
    decode32 hw1 hw2 = defined i := by
  cases i with
  | bl off24 =>
    obtain ⟨h1, h2, rfl⟩ := encodeBl_eq_iff.1 h
    exact decode32_eq_read h1 h2 rfl rfl rfl
  | msr r rn =>
    obtain ⟨⟨h1, rfl⟩, h2, hr⟩ := encodeMsr_eq_iff.1 h
    exact (decode32_eq_read h1 h2 rfl rfl rfl).trans (by simp only [hr])
  | mrs rd r =>
    obtain ⟨h1, h2, rfl, hr⟩ := encodeMrs_eq_iff.1 h
    exact (decode32_eq_read h1 h2 rfl rfl rfl).trans (by simp only [hr])
  | dsb | dmb | isb =>
    obtain ⟨h1, h2, rfl⟩ := encodeBarrier_eq_iff.1 h
    exact decode32_eq_read h1 h2 rfl rfl rfl
  | udfW imm16 =>
    obtain ⟨h1, h2, rfl⟩ := encodeUdfW_eq_iff.1 h
    exact decode32_eq_read h1 h2 rfl rfl rfl
  | _ => cases h

/-! ## What is read is what the word encodes -/

theorem wellFormed_of_defined {i j : Instr} (h : defined i = .ok j) : i.wellFormed = true := by
  unfold defined at h
  split at h
  · assumption
  · cases h

theorem defined_of_wellFormed {i : Instr} (h : i.wellFormed = true) : defined i = .ok i := if_pos h

/-- Whatever a row reads from a halfword that matches it is well formed and has that halfword as its encoding. -/
def Row16.Inverts (r : Row16) : Prop :=
  ∀ (w : Halfword) (i : Instr), w &&& r.mask = r.pattern → r.read w = .ok i → i.wellFormed = true ∧ encode i = [w]

/-- Whatever a row reads from a pair that matches it is well formed and has that pair as its encoding. -/
def Row32.Inverts (r : Row32) : Prop :=
  ∀ (hw1 hw2 : Halfword) (i : Instr), hw1 &&& r.mask.1 = r.pattern.1 → hw2 &&& r.mask.2 = r.pattern.2 →
    r.read hw1 hw2 = .ok i → i.wellFormed = true ∧ encode i = [hw1, hw2]

theorem encode_of_defined {i j : Instr} {ws : List Halfword} (h : defined i = .ok j) (hws : encode i = ws) :
    j.wellFormed = true ∧ encode j = ws := by
  obtain rfl := Machine.defined_eq_ok h
  exact ⟨wellFormed_of_defined h, hws⟩

theorem Row16.Inverts.of_defined {p m sb : Halfword} {f : Halfword → Instr}
    (h : ∀ w, w &&& m = p → encode (f w) = [w]) : Inverts ⟨p, m, sb, fun w => defined (f w)⟩ :=
  fun w _ hm hi => encode_of_defined hi (h w hm)

theorem Row32.Inverts.of_defined {p m sb : Halfword × Halfword} {f : Halfword → Halfword → Instr}
    (h : ∀ hw1 hw2, hw1 &&& m.1 = p.1 → hw2 &&& m.2 = p.2 → encode (f hw1 hw2) = [hw1, hw2]) :
    Inverts ⟨p, m, sb, fun hw1 hw2 => defined (f hw1 hw2)⟩ :=
  fun hw1 hw2 _ h1 h2 hi => encode_of_defined hi (h hw1 hw2 h1 h2)

theorem rowsShiftAddMove_inverts : ∀ r ∈ rowsShiftAddMove, r.Inverts := by
  simp only [rowsShiftAddMove, List.forall_mem_cons]
  refine ⟨.of_defined fun _ hm => encode2_eq_iff.2 ⟨hm, rfl, rfl⟩, ?_⟩
  iterate 3 refine ⟨.of_defined fun _ hm => encodeImm5_eq_iff.2 ⟨hm, rfl, rfl, rfl⟩, ?_⟩
  iterate 2 refine ⟨.of_defined fun _ hm => encode3_eq_iff.2 ⟨hm, rfl, rfl, rfl⟩, ?_⟩
  iterate 2 refine ⟨.of_defined fun _ hm => encodeImm3_eq_iff.2 ⟨hm, rfl, rfl, rfl⟩, ?_⟩
  iterate 4 refine ⟨.of_defined fun _ hm => encodeImm8_eq_iff.2 ⟨hm, rfl, rfl⟩, ?_⟩
  exact List.forall_mem_nil _

theorem rowsDataProcessing_inverts : ∀ r ∈ rowsDataProcessing, r.Inverts := by
  simp only [rowsDataProcessing, List.forall_mem_cons]
  iterate 16 refine ⟨.of_defined fun _ hm => encode2_eq_iff.2 ⟨hm, rfl, rfl⟩, ?_⟩
  exact List.forall_mem_nil _

theorem rowsSpecialData_inverts : ∀ r ∈ rowsSpecialData, r.Inverts := by
  simp only [rowsSpecialData, List.forall_mem_cons]
  iterate 3 refine ⟨.of_defined fun _ hm => encodeHigh_eq_iff.2 ⟨hm, rfl, rfl⟩, ?_⟩
  iterate 2 refine ⟨.of_defined fun _ hm => encodeExchange_eq_iff.2 ⟨hm, rfl⟩, ?_⟩
  exact List.forall_mem_nil _

theorem rowsLoadStore_inverts : ∀ r ∈ rowsLoadStore, r.Inverts := by
  simp only [rowsLoadStore, List.forall_mem_cons]
  refine ⟨.of_defined fun _ hm => encodeImm8_eq_iff.2 ⟨hm, rfl, rfl⟩, ?_⟩
  iterate 8 refine ⟨.of_defined fun _ hm => encode3_eq_iff.2 ⟨hm, rfl, rfl, rfl⟩, ?_⟩
  iterate 6 refine ⟨.of_defined fun _ hm => encodeImm5_eq_iff.2 ⟨hm, rfl, rfl, rfl⟩, ?_⟩
  iterate 2 refine ⟨.of_defined fun _ hm => encodeImm8_eq_iff.2 ⟨hm, rfl, rfl⟩, ?_⟩
  exact List.forall_mem_nil _

theorem rowsMiscellaneous_inverts : ∀ r ∈ rowsMiscellaneous, r.Inverts := by
  simp only [rowsMiscellaneous, List.forall_mem_cons]
  iterate 2 refine ⟨.of_defined fun _ hm => encodeImm8_eq_iff.2 ⟨hm, rfl, rfl⟩, ?_⟩
  iterate 2 refine ⟨.of_defined fun _ hm => encodeImm_eq_iff.2 ⟨hm, rfl⟩, ?_⟩
  iterate 4 refine ⟨.of_defined fun _ hm => encode2_eq_iff.2 ⟨hm, rfl, rfl⟩, ?_⟩
  refine ⟨.of_defined fun _ hm => encodeList_eq_iff.2 ⟨hm, rfl, rfl⟩, ?_⟩
  iterate 2 refine ⟨.of_defined fun _ hm => encodeFixed_eq_iff.2 hm, ?_⟩
  iterate 3 refine ⟨.of_defined fun _ hm => encode2_eq_iff.2 ⟨hm, rfl, rfl⟩, ?_⟩
  refine ⟨.of_defined fun _ hm => encodeList_eq_iff.2 ⟨hm, rfl, rfl⟩, ?_⟩
  refine ⟨.of_defined fun _ hm => encodeImm_eq_iff.2 ⟨hm, rfl⟩, ?_⟩
  exact List.forall_mem_nil _

theorem rowsHints_inverts : ∀ r ∈ rowsHints, r.Inverts := by
  simp only [rowsHints, List.forall_mem_cons]
  iterate 5 refine ⟨.of_defined fun _ hm => encodeFixed_eq_iff.2 hm, ?_⟩
  exact ⟨fun _ _ _ h => (nomatch h), List.forall_mem_nil _⟩

theorem rowsMultipleAndBranch_inverts : ∀ r ∈ rowsMultipleAndBranch, r.Inverts := by
  simp only [rowsMultipleAndBranch, List.forall_mem_cons]
  iterate 2 refine ⟨.of_defined fun _ hm => encodeImm8_eq_iff.2 ⟨hm, rfl, rfl⟩, ?_⟩
  iterate 2 refine ⟨.of_defined fun _ hm => encodeImm_eq_iff.2 ⟨hm, rfl⟩, ?_⟩
  refine ⟨fun w i hm hi => ?_, .of_defined fun _ hm => encodeImm_eq_iff.2 ⟨hm, rfl⟩, List.forall_mem_nil _⟩
  dsimp only at hm hi
  split at hi
  · rename_i c hc
    exact encode_of_defined hi (encodeCond_eq_iff.2 ⟨hm, hc, rfl⟩)
  · cases hi

theorem table16_inverts : ∀ r ∈ table16, r.Inverts := by
  simp only [table16, List.forall_mem_append]
  exact ⟨⟨⟨⟨⟨⟨rowsShiftAddMove_inverts, rowsDataProcessing_inverts⟩, rowsSpecialData_inverts⟩, rowsLoadStore_inverts⟩,
    rowsMiscellaneous_inverts⟩, rowsHints_inverts⟩, rowsMultipleAndBranch_inverts⟩

theorem table32_inverts : ∀ r ∈ table32, r.Inverts := by
  simp only [table32, List.forall_mem_cons]
  refine ⟨.of_defined fun _ _ h1 h2 => encodeBl_eq_iff.2 ⟨h1, h2, rfl⟩, fun hw1 hw2 i h1 h2 hi => ?_,
    fun hw1 hw2 i h1 h2 hi => ?_, ?_⟩
  · dsimp only at h1 h2 hi
    split at hi
    · rename_i r hr
      exact encode_of_defined hi (encodeMsr_eq_iff.2 ⟨⟨h1, rfl⟩, h2, hr⟩)
    · cases hi
  · dsimp only at h1 h2 hi
    split at hi
    · rename_i r hr
      exact encode_of_defined hi (encodeMrs_eq_iff.2 ⟨h1, h2, rfl, hr⟩)
    · cases hi
  · iterate 3 refine ⟨.of_defined fun _ _ h1 h2 => encodeBarrier_eq_iff.2 ⟨h1, h2, rfl⟩, ?_⟩
    exact ⟨.of_defined fun _ _ h1 h2 => encodeUdfW_eq_iff.2 ⟨h1, h2, rfl⟩, List.forall_mem_nil _⟩

/-- What a halfword decodes to is read by a row that matches it. -/
theorem exists_row_of_decode16 {w : Halfword} {i : Instr} (h : decode16 w = .ok i) :
    ∃ r ∈ table16, w &&& r.mask = r.pattern ∧ r.read w = .ok i := by
  unfold decode16 at h
  split at h
  · rename_i r hr
    unfold Row16.decode at h
    split at h
    · rename_i hm
      exact ⟨r, List.mem_of_find?_eq_some hr, beq_iff_eq.1 hm, h⟩
    · cases h
  · cases h

/-- What a pair decodes to is read by a row that matches it. -/
theorem exists_row_of_decode32 {hw1 hw2 : Halfword} {i : Instr} (h : decode32 hw1 hw2 = .ok i) :
    ∃ r ∈ table32, hw1 &&& r.mask.1 = r.pattern.1 ∧ hw2 &&& r.mask.2 = r.pattern.2 ∧ r.read hw1 hw2 = .ok i := by
  unfold decode32 at h
  split at h
  · rename_i r hr
    unfold Row32.decode at h
    split at h
    · rename_i hm
      rw [Bool.and_eq_true, beq_iff_eq, beq_iff_eq] at hm
      obtain ⟨h1, h2⟩ := hm
      exact ⟨r, List.mem_of_find?_eq_some hr, h1, h2, h⟩
    · cases h
  · cases h

theorem encode_of_decode16 {w : Halfword} {i : Instr} (h : decode16 w = .ok i) :
    i.wellFormed = true ∧ encode i = [w] := by
  obtain ⟨r, hr, hm, hi⟩ := exists_row_of_decode16 h
  exact table16_inverts r hr w i hm hi

theorem encode_of_decode32 {hw1 hw2 : Halfword} {i : Instr} (h : decode32 hw1 hw2 = .ok i) :
    i.wellFormed = true ∧ encode i = [hw1, hw2] := by
  obtain ⟨r, hr, h1, h2, hi⟩ := exists_row_of_decode32 h
  exact table32_inverts r hr hw1 hw2 i h1 h2 hi

end Sys2Proof
end

section
/-!
SUPPORT. From bytes to instructions and back (30_encoding.md R133, R181), and the statements of the family
30_encoding.md: decoding and encoding are inverse, and what R207 refuses is refused.
-/

namespace Sys2Proof

/-! ## Bytes -/

theorem bytesOfHalfword_halfwordOf (b0 b1 : Byte) : bytesOfHalfword (halfwordOf b0 b1) = [b0, b1] := by
  obtain ⟨h1, h0⟩ := append_eq_iff.1 (rfl : b1 ++ b0 = halfwordOf b0 b1)
  exact congrArg₂ (fun x y => [x, y]) h0 h1

theorem halfwordOf_extractLsb' (w : Halfword) : halfwordOf (w.extractLsb' 0 8) (w.extractLsb' 8 8) = w :=
  (append_eq_iff (a := 8) (b := 8)).2 ⟨rfl, rfl⟩

theorem map_eq_ok_iff {α β : Type} {x : Except Reject α} {f : α → β} {y : β} :
    x.map f = .ok y ↔ ∃ a, x = .ok a ∧ f a = y := by
  cases x <;> simp [Except.map]

/-- Decoding reads one halfword or two, as the first says (R181). -/
theorem decode_eq_ok_iff {bs rest : List Byte} {i : Instr} : decode bs = .ok (i, rest) ↔
    (∃ w, isWide w = false ∧ decode16 w = .ok i ∧ bs = bytesOfHalfword w ++ rest) ∨
    ∃ hw1 hw2, isWide hw1 = true ∧ decode32 hw1 hw2 = .ok i ∧
      bs = bytesOfHalfword hw1 ++ bytesOfHalfword hw2 ++ rest := by
  constructor
  · intro h
    unfold decode at h
    split at h
    · rename_i b0 b1 bs'
      dsimp only at h
      split at h
      · rename_i hw
        split at h
        · rename_i b2 b3 bs''
          obtain ⟨j, hj, hr⟩ := map_eq_ok_iff.1 h
          cases hr
          exact .inr ⟨_, _, hw, hj, by simp only [bytesOfHalfword_halfwordOf, List.cons_append, List.nil_append]⟩
        · cases h
      · rename_i hw
        obtain ⟨j, hj, hr⟩ := map_eq_ok_iff.1 h
        cases hr
        exact .inl ⟨_, Bool.eq_false_of_not_eq_true hw, hj,
          by simp only [bytesOfHalfword_halfwordOf, List.cons_append, List.nil_append]⟩
    · cases h
  · rintro (⟨w, hw, hd, rfl⟩ | ⟨hw1, hw2, hw, hd, rfl⟩)
    · simp [bytesOfHalfword, decode, halfwordOf_extractLsb', hw, hd, Except.map]
    · simp [bytesOfHalfword, decode, halfwordOf_extractLsb', hw, hd, Except.map]

/-! ## The first halfword says how many there are (R181) -/

theorem isWide_iff {w : Halfword} :
    isWide w = true ↔ (w &&& 0xF800 = 0xE800 ∨ w &&& 0xF800 = 0xF000) ∨ w &&& 0xF800 = 0xF800 := by
  simp only [isWide, Bool.or_eq_true, beq_iff_eq]
  have htop (t : BitVec 5) := (opcode_iff (a := 5) (b := 11) (op := t) (w := w)).symm
  exact or_congr (or_congr (htop _) (htop _)) (htop _)

/-- No row of the 16-bit table covers the first halfword of a 32-bit instruction. -/
theorem decode16_of_isWide {w : Halfword} (h : isWide w = true) : decode16 w = .error .undefined := by
  obtain (hw | hw) | hw := isWide_iff.1 h <;> exact decode16_eq_undefined hw rfl

theorem isWide_of_decode32 {hw1 hw2 : Halfword} {i : Instr} (h : decode32 hw1 hw2 = .ok i) : isWide hw1 = true := by
  obtain ⟨r, hr, h1, -, -⟩ := exists_row_of_decode32 h
  have hrows : ∀ r ∈ table32, 0xF800#16 &&& r.mask.1 = 0xF800#16 ∧ r.pattern.1 &&& 0xF800#16 = 0xF000#16 := by decide
  obtain ⟨hmask, hpattern⟩ := hrows r hr
  exact isWide_iff.2 (.inl (.inr (and_eq_of_submask h1 hmask hpattern)))

/-! ## The statements -/

theorem exists_encode_eq (i : Instr) : (∃ w, encode i = [w]) ∨ ∃ hw1 hw2, encode i = [hw1, hw2] := by
  cases i with
  | bl | msr | mrs | dsb | dmb | isb | udfW => exact .inr ⟨_, _, rfl⟩
  | _ => exact .inl ⟨_, rfl⟩

theorem encodeBytes_of_encode {i : Instr} {ws : List Halfword} (h : encode i = ws) :
    encodeBytes i = ws.flatMap bytesOfHalfword := by
  rw [encodeBytes, h]

/-- Settles O2: the row of each encoding is found, and reads the operands that were encoded. -/
theorem decodeEncode : Obligations.DecodeEncode := by
  intro i rest hi
  rw [decode_eq_ok_iff]
  obtain ⟨w, h⟩ | ⟨hw1, hw2, h⟩ := exists_encode_eq i
  · have hd : decode16 w = .ok i := (decode16_of_encode h hi).trans (defined_of_wellFormed hi)
    have hw : isWide w = false := Bool.eq_false_of_not_eq_true fun hw => by
      rw [decode16_of_isWide hw] at hd
      cases hd
    exact .inl ⟨w, hw, hd, by rw [encodeBytes_of_encode h, List.flatMap_singleton]⟩
  · have hd : decode32 hw1 hw2 = .ok i := (decode32_of_encode h).trans (defined_of_wellFormed hi)
    exact .inr ⟨hw1, hw2, isWide_of_decode32 hd, hd, by simp [encodeBytes_of_encode h]⟩

/-- Settles O3: every row of the tables reads what its word encodes. -/
theorem decodedIsEncoded : Obligations.DecodedIsEncoded := by
  intro bs rest i h
  obtain ⟨w, -, hd, rfl⟩ | ⟨hw1, hw2, -, hd, rfl⟩ := decode_eq_ok_iff.1 h
  · obtain ⟨hi, he⟩ := encode_of_decode16 hd
    exact ⟨hi, by rw [encodeBytes_of_encode he, List.flatMap_singleton]⟩
  · obtain ⟨hi, he⟩ := encode_of_decode32 hd
    exact ⟨hi, by simp [encodeBytes_of_encode he]⟩

end Sys2Proof

namespace Sys2Proof.Machine

/-- Settles O4: each meaning tests for the combinations that R207 names. -/
theorem illFormedRefused : Obligations.IllFormedRefused := by
  intro i s hi hlsls
  cases i with
  | lslsImm rd rm imm5 => exact absurd rfl (hlsls rd rm imm5)
  | addHigh rdn rm =>
    have h : rdn = 15 ∧ rm = 15 := by simpa [Instr.wellFormed] using hi
    exact if_pos h
  | cmpHigh rn rm =>
    have h : (rn.val < 8 ∧ rm.val < 8) ∨ rn = 15 ∨ rm = 15 := by
      by_contra hn
      simp_all [Instr.wellFormed]
    exact if_pos h
  | bx rm | blx rm | mrs rm | msr spec rm =>
    have h : rm = 13 ∨ rm = 15 := by
      by_contra hn
      simp_all [Instr.wellFormed]
    exact if_pos h
  | push r list | pop r list =>
    obtain ⟨rfl, rfl⟩ : r = false ∧ list = 0 := by simpa [Instr.wellFormed] using hi
    rfl
  | stm rn list | ldm rn list =>
    obtain rfl : list = 0 := by simpa [Instr.wellFormed] using hi
    rfl
  | _ => cases hi

end Sys2Proof.Machine
end

section
/-!
SUPPORT. The hints, the barriers, SEV and CPS (44_misc.md R356 to R376).
-/

namespace Sys2Proof.Machine

/-- An instruction that only goes on to the next one. -/
theorem registersOnly_advance (s : State) (n : Nat) : RegistersOnly s (s.advance n) (BitVec.ofNat 32 n) [] :=
  .advance n rfl (.refl s []) (by constructor <;> rfl) rfl

/-- Settles O31: each of these updates at most one bit of the state, then goes on. -/
theorem hintsAndBarriers : Obligations.HintsAndBarriers := by
  intro s option
  refine ⟨fun i hi => ?_, fun i hi => ?_, ?_, ?_, ?_⟩
  · refine ⟨s.advance 2, ?_, rfl, registersOnly_advance s 2⟩
    simp only [List.mem_cons, List.not_mem_nil, or_false] at hi
    obtain rfl | rfl := hi <;> rfl
  · refine ⟨s.advance 4, ?_, rfl, registersOnly_advance s 4⟩
    simp only [List.mem_cons, List.not_mem_nil, or_false] at hi
    obtain rfl | rfl | rfl := hi <;> rfl
  · exact ⟨_, rfl, rfl, rfl, registersOnly_advance { s with event := true } 2⟩
  · exact ⟨_, rfl, rfl, rfl, registersOnly_advance { s with primask := false } 2⟩
  · exact ⟨_, rfl, rfl, rfl, registersOnly_advance { s with primask := true } 2⟩

end Sys2Proof.Machine
end

section
/-!
SUPPORT. STM with a base that is not the lowest register of its list (40_memory_access.md R250, U1).
-/

namespace Sys2Proof.Machine

/-- Settles O26: every word but that of the base is as `execStm_of_ordinary` says, and of that one nothing is claimed. -/
theorem stmBaseNotLowest : Obligations.StmBaseNotLowest := by
  intro s rn r0 list hrn _ _
  dsimp only
  intro hm ho
  have hlist : list ≠ 0 := fun h => by simp [h] at hrn
  obtain ⟨t, ht, hf, hpc, hnum, hframe⟩ := execStm_of_ordinary hlist hm ho
  exact ⟨t, ht, hf, hpc, fun r hr hne => hnum r hr fun h => absurd h hne, hframe⟩

end Sys2Proof.Machine
end

section
/-!
SUPPORT. Returning from an exception by BX or by POP with PC (60_exceptions.md R440, R441; 40_memory_access.md R252).
-/

namespace Sys2Proof.Machine

/-! ## EXC_RETURN values (R441) -/

/-- Bits [3:0] of an EXC_RETURN value say what it selects, or that it is reserved (R441). -/
theorem returnKindOf_eq (v : Word) : returnKindOf v =
    if v.toNat % 16 = 1 ∨ v.toNat % 16 = 9 ∨ v.toNat % 16 = 13 then
      some { fromProcess := decide (v.toNat % 16 = 13), toThread := decide (v.toNat % 16 ≠ 1) }
    else none := by
  have low (x : BitVec 4) : v.extractLsb' 0 4 = x ↔ v.toNat % 16 = x.toNat := by
    rw [BitVec.toNat_eq, BitVec.extractLsb'_toNat, Nat.shiftRight_zero]
  simp only [returnKindOf, low]
  by_cases h1 : v.toNat % 16 = 1
  · simp [h1]
  · by_cases h9 : v.toNat % 16 = 9
    · simp [h9]
    · by_cases h13 : v.toNat % 16 = 13
      · simp [h13]
      · simp [h1, h9, h13]

/-- The stack pointer that a return leaves: past the frame, and past the skipped word where bit [9] of the stacked PSR
says that there is one (R431, R440). -/
theorem alignWord_returnedSp {fp : Word} (psr : Word) (h : fp.toNat % 4 = 0) :
    alignWord (returnedSp fp psr) = (fp + 32) ||| (if psr.toNat.testBit 9 then 4 else 0) := by
  have hbit : (psr &&& 0x200) >>> 7 = if psr.toNat.testBit 9 then 4 else 0 := by
    have h9 : psr &&& 0x200 = if psr.toNat.testBit 9 then 0x200 else 0 := by
      apply BitVec.eq_of_toNat_eq
      have := Nat.and_two_pow psr.toNat 9
      rw [BitVec.toNat_and]
      split <;> simp_all
    rw [h9]
    split <;> rfl
  have hfp : alignWord (fp + 32) = fp + 32 := by
    rw [alignWord_eq_self_iff, BitVec.toNat_add]
    have : (32 : Word).toNat = 32 := rfl
    omega
  have hor (x y : Word) : alignWord (x ||| y) = alignWord x ||| alignWord y := by
    apply BitVec.eq_of_getLsbD_eq
    intro i _
    simp only [alignWord, BitVec.getLsbD_and, BitVec.getLsbD_or, Bool.and_or_distrib_right]
  have hsp : returnedSp fp psr = (fp + 32) ||| (if psr.toNat.testBit 9 then 4 else 0) :=
    congrArg ((fp + 32) ||| ·) hbit
  rw [hsp, hor, hfp]
  split <;> rfl

/-! ## The active exceptions (R90, R440) -/

/-- The exceptions that are active once the handler has ended. -/
theorem State.isActive_endException (s : State) (e : Nat) :
    s.endException.isActive e = (s.isActive e && decide (e ≠ s.ipsr.toNat)) := by
  by_cases he : e < 48
  · simp [State.isActive, State.endException, setBit, he]
  · have beyond (x : State) : x.isActive e = false := BitVec.getLsbD_of_ge _ e (by omega)
    simp [beyond]

theorem State.active_eq_zero_iff (s : State) : s.nvic.active = 0 ↔ ∀ e : Nat, s.isActive e = false :=
  ⟨fun h e => by rw [State.isActive, h]; exact BitVec.getLsbD_zero,
    fun h => BitVec.eq_of_getLsbD_eq fun e _ => (h e).trans BitVec.getLsbD_zero.symm⟩

/-- A return agrees with the active exceptions when its own is active, and alone exactly for a return to Thread mode. -/
theorem State.returnConsistent_iff {s : State} {k : ReturnKind} : s.returnConsistent k = true ↔
    s.isActive s.ipsr.toNat = true ∧ (k.toThread = true ↔ ∀ e : Nat, s.isActive e = true → e = s.ipsr.toNat) := by
  have alone : s.endException.nvic.active = 0 ↔ ∀ e : Nat, s.isActive e = true → e = s.ipsr.toNat := by
    rw [State.active_eq_zero_iff]
    simp [State.isActive_endException]
  rw [State.returnConsistent, Bool.and_eq_true, beq_iff_eq, Bool.eq_iff_iff (a := k.toThread), beq_iff_eq, alone]

/-! ## Unstacking (R440) -/

/-- The eight words from `fp` on as a frame. -/
def State.frameAt (s : State) (fp : Word) : Frame where
  r0 := s.mem.readWord fp
  r1 := s.mem.readWord (fp + 0x04)
  r2 := s.mem.readWord (fp + 0x08)
  r3 := s.mem.readWord (fp + 0x0C)
  r12 := s.mem.readWord (fp + 0x10)
  lr := s.mem.readWord (fp + 0x14)
  ra := s.mem.readWord (fp + 0x18)
  psr := s.mem.readWord (fp + 0x1C)

/-- A frame in memory is unstacked, and nothing changes. -/
theorem State.unstack_of_ordinary {s : State} {fp : Word} (h : s.ordinaryWords .read fp 8 = true) :
    s.unstack fp = .ok (s.frameAt fp, s) := by
  have word (k : Nat) (hk : k < 8) := State.loadWord_of_ordinary (State.ordinaryWords_iff.1 h k hk)
  have h0 := word 0 (by decide)
  rw [Nat.mul_zero, BitVec.add_zero] at h0
  have h1 : s.loadWord (fp + 0x04) = _ := word 1 (by decide)
  have h2 : s.loadWord (fp + 0x08) = _ := word 2 (by decide)
  have h3 : s.loadWord (fp + 0x0C) = _ := word 3 (by decide)
  have h4 : s.loadWord (fp + 0x10) = _ := word 4 (by decide)
  have h5 : s.loadWord (fp + 0x14) = _ := word 5 (by decide)
  have h6 : s.loadWord (fp + 0x18) = _ := word 6 (by decide)
  have h7 : s.loadWord (fp + 0x1C) = _ := word 7 (by decide)
  simp only [State.unstack, Access.bind, h0, h1, h2, h3, h4, h5, h6, h7]
  rfl

/-! ## The restored context (R440, R441) -/

/-- The restored context with the stack pointer that the return selects (R440, R441). -/
theorem State.restore_eq (s : State) (k : ReturnKind) (fp : Word) (f : Frame) : s.restore k fp f =
    { s with
      regs := ((((s.regs.set 0 f.r0).set 1 f.r1).set 2 f.r2).set 3 f.r3).set 12 f.r12
      lr := f.lr
      spsel := k.fromProcess
      apsr := Apsr.ofWord f.psr
      thumb := f.psr.getLsbD 24
      ipsr := f.psr.extractLsb' 0 6
      pc := clearBit0 f.ra
      msp := if k.fromProcess then s.msp else alignWord (returnedSp fp f.psr)
      psp := if k.fromProcess then alignWord (returnedSp fp f.psr) else s.psp } := by
  unfold State.restore
  cases k.fromProcess <;> rfl

/-- R0 to R3 and R12 come from the frame. -/
theorem State.readReg_restore_stacked (s : State) (k : ReturnKind) (fp : Word) (f : Frame) :
    (s.restore k fp f).readReg 0 = f.r0 ∧ (s.restore k fp f).readReg 1 = f.r1 ∧ (s.restore k fp f).readReg 2 = f.r2 ∧
      (s.restore k fp f).readReg 3 = f.r3 ∧ (s.restore k fp f).readReg 12 = f.r12 := by
  simp [State.readReg, State.restore_eq]

/-- R4 to R11 are not in the frame. -/
theorem State.readReg_restore (s : State) (k : ReturnKind) (fp : Word) (f : Frame) {r : Reg} (h4 : 4 ≤ r.val)
    (h11 : r.val ≤ 11) : (s.restore k fp f).readReg r = s.readReg r := by
  have ne (i : Nat) (hi : i < 4 ∨ i = 12) : i ≠ r.val := by omega
  rw [State.readReg_of_lt _ (by omega), State.readReg_of_lt _ (by omega)]
  simp only [State.restore_eq]
  rw [Vector.getElem_set_ne (h := ne 12 (by decide)), Vector.getElem_set_ne (h := ne 3 (by decide)),
    Vector.getElem_set_ne (h := ne 2 (by decide)), Vector.getElem_set_ne (h := ne 1 (by decide)),
    Vector.getElem_set_ne (h := ne 0 (by decide))]

/-- Sleep-on-exit changes the sleep state only, and only on a return to Thread mode with SCR.SLEEPONEXIT set (R483). -/
theorem State.sleepOnExit_eq (s : State) (k : ReturnKind) : ∃ x, s.sleepOnExit k = { s with sleep := x } ∧
    (k.toThread = false ∨ s.scb.sleepOnExit = false → x = s.sleep) := by
  unfold State.sleepOnExit
  split
  · rename_i h
    simp only [Bool.and_eq_true] at h
    exact ⟨_, rfl, fun hn => by simp [h.1.1, h.1.2] at hn⟩
  · exact ⟨s.sleep, rfl, fun _ => rfl⟩

/-! ## What an exception return ends in (R440, D19) -/

theorem exceptionReturn_of_reserved {v : Word} (f s : State) (h : returnKindOf v = none) :
    exceptionReturn f s v = .fault .reservedExcReturn := by
  simp only [exceptionReturn, h]

theorem exceptionReturn_of_inconsistent {v : Word} {k : ReturnKind} {s : State} (f : State)
    (hk : returnKindOf v = some k) (h : ¬s.returnConsistent k = true) :
    exceptionReturn f s v = .fault .inconsistentReturn := by
  simp [exceptionReturn, hk, h]

/-- A return that agrees with the active exceptions, from a frame in memory: the stacked IPSR says whether it is to
Thread mode. -/
theorem exceptionReturn_of_consistent {v : Word} {k : ReturnKind} {s : State} (f : State)
    (hk : returnKindOf v = some k) (h : s.returnConsistent k = true)
    (ho : s.ordinaryWords .read (s.returnFrame k) 8 = true) :
    exceptionReturn f s v =
      if k.toThread = true ↔ s.number (s.returnFrame k + 0x1C) 4 % 64 = 0 then
        .next ((s.endException.restore k (s.returnFrame k) (s.frameAt (s.returnFrame k))).sleepOnExit k)
      else .fault .inconsistentReturn := by
  have hu : s.endException.unstack (s.returnFrame k) = .ok (s.frameAt (s.returnFrame k), s.endException) :=
    State.unstack_of_ordinary (s := s.endException) (State.ordinaryWords_of_memMap_eq rfl ho)
  have hmode : (s.endException.restore k (s.returnFrame k) (s.frameAt (s.returnFrame k))).handlerMode = true ↔
      s.number (s.returnFrame k + 0x1C) 4 % 64 ≠ 0 := by
    rw [State.restore_eq, ← State.readWord_toNat]
    simp [State.handlerMode, State.frameAt, BitVec.toNat_eq]
  have hstop :
      (k.toThread == (s.endException.restore k (s.returnFrame k) (s.frameAt (s.returnFrame k))).handlerMode) = true ↔
        ¬(k.toThread = true ↔ s.number (s.returnFrame k + 0x1C) 4 % 64 = 0) := by
    rw [beq_iff_eq, Bool.eq_iff_iff, hmode]
    tauto
  simp only [exceptionReturn, hk, h, hu, Bool.not_true, Bool.false_eq_true, if_false]
  by_cases hc : k.toThread = true ↔ s.number (s.returnFrame k + 0x1C) 4 % 64 = 0
  · exact (if_neg (hstop.not.2 (not_not.2 hc))).trans (if_pos hc).symm
  · exact (if_pos (hstop.2 hc)).trans (if_neg hc).symm

/-! ## The instructions that return (R440) -/

/-- What an instruction that returns from an exception has done before the return: the registers of `list` loaded from
the stack, and the main stack pointer moved up by `n` words (R252). -/
structure Unloaded (s u : State) (list : BitVec 8) (n : Nat) : Prop where
  only : u = { s with regs := u.regs, msp := u.msp }
  mainSp : u.mainSp = s.mainSp + BitVec.ofNat 32 (4 * n)
  kept : ∀ r : Reg, r.val < 13 → list.getLsbD r.val = false → u.readReg r = s.readReg r
  loaded : ∀ r : LowReg, list.getLsbD r.val = true → (u.readLow r).toNat =
    s.number (s.sp + BitVec.ofNat 32 (4 * ((registersOf list).filter (fun q => decide (q.val < r.val))).length)) 4

theorem Unloaded.refl (s : State) : Unloaded s s 0 0 where
  only := rfl
  mainSp := (BitVec.add_zero _).symm
  kept _ _ _ := rfl
  loaded _ h := by simp at h

/-- POP with PC in Handler mode, up to the load of the PC. -/
theorem unloaded_pop {s : State} {list : BitVec 8} {regs : Vector Word 13} (hm : s.handlerMode = true)
    (hk : KeepsRegisters s { s with regs := regs } ((registersOf list).map LowReg.toReg))
    (hv : ∀ r ∈ registersOf list, (State.readLow { s with regs := regs } r).toNat =
      s.number (s.sp + BitVec.ofNat 32 (4 * ((registersOf list).filter (fun q => decide (q.val < r.val))).length)) 4) :
    Unloaded s (State.setSp { s with regs := regs } (s.sp + BitVec.ofNat 32 (4 * ((registersOf list).length + 1)))) list
      ((registersOf list).length + 1) := by
  have hp : s.onProcessStack = false := by simp [State.onProcessStack, hm]
  have hsp : s.sp = s.mainSp := by simp [State.sp, hp]
  have hset (v : Word) : State.setSp { s with regs := regs } v = { s with regs := regs, msp := alignWord v } := by
    have : State.onProcessStack { s with regs := regs } = false := hp
    simp [State.setSp, this, State.setMainSp]
  have halign := s.alignWord_sp_add ((registersOf list).length + 1)
  rw [hset, halign]
  refine ⟨rfl, ?_, fun r hr hlist => ?_, fun r hr => hv r (mem_registersOf.2 hr)⟩
  · rw [← hsp]; exact halign
  · have h15 : r ≠ 15 := fun h => by simp [h] at hr
    have hn : r ∉ (registersOf list).map LowReg.toReg := fun h => by
      obtain ⟨q, hq, rfl⟩ := List.mem_map.1 h
      exact Bool.false_ne_true (hlist.symm.trans (mem_registersOf.1 hq))
    rw [← hk.register r h15 hn, State.readReg_of_lt _ hr, State.readReg_of_lt _ hr]

/-- In Handler mode an EXC_RETURN value that BX or POP loads into the PC is an exception return (R11, R440). -/
theorem bxWritePc_of_return {u : State} (f : State) {v : Word} (hm : u.handlerMode = true)
    (hv : v.toNat / 16 = 0xFFFFFFF) : bxWritePc f u v = exceptionReturn f u v :=
  if_pos (by rw [hm, (isExcReturn_iff v).2 hv]; rfl)

/-- POP with PC ends as `BXWritePC` of the word above its registers does, with the stack pointer past that word. -/
theorem execPop_true_eq_bxWritePc {s : State} {list : BitVec 8} {regs : Vector Word 13}
    (hl : State.loadRegisters (registersOf list) s.sp s = .ok { s with regs := regs })
    (ho : s.ordinary .read (s.sp + BitVec.ofNat 32 (4 * (registersOf list).length)) 4 = true) :
    execPop true list s = bxWritePc s
      (State.setSp { s with regs := regs } (s.sp + BitVec.ofNat 32 (4 * ((registersOf list).length + 1))))
      (s.mem.readWord (s.sp + BitVec.ofNat 32 (4 * (registersOf list).length))) := by
  have hw : State.loadWord { s with regs := regs } (s.sp + BitVec.ofNat 32 (4 * (registersOf list).length)) = .ok
      (s.mem.readWord (s.sp + BitVec.ofNat 32 (4 * (registersOf list).length)), { s with regs := regs }) :=
    State.loadWord_of_ordinary ho
  have hsp : s.sp + BitVec.ofNat 32 (4 * ((registersOf list).length + 1)) =
      s.sp + BitVec.ofNat 32 (4 * (registersOf list).length) + 4 := by
    rw [add_word_succ, BitVec.add_assoc, BitVec.add_comm 4, BitVec.add_assoc]
  simp only [execPop, if_true, hl, concludeTransfer, wordsSize, hw, hsp]

/-- BX and POP with PC return in the same way, from the state that the load of the registers leaves. -/
theorem LoadsPc.exec_eq {s : State} {i : Instr} {v : Word} {list : BitVec 8} {n : Nat} (h : LoadsPc s i v list n)
    (hm : s.handlerMode = true) (hv : v.toNat / 16 = 0xFFFFFFF) :
    ∃ u, exec i s = exceptionReturn s u v ∧ Unloaded s u list n := by
  cases h with
  | bx rm h13 h15 =>
    exact ⟨s, (if_neg (not_or.2 ⟨h13, h15⟩)).trans (bxWritePc_of_return s hm hv), .refl s⟩
  | pop list ho =>
    have hi := State.ordinaryWords_iff.1 ho
    obtain ⟨regs, hl, hk, hval⟩ := State.loadRegisters_eq (registersOf_sorted list)
      (State.ordinaryWords_iff.2 fun i h => hi i (Nat.lt_succ_of_lt h))
    have hword : BitVec.ofNat 32 (s.number (s.sp + BitVec.ofNat 32 (4 * (registersOf list).length)) 4) =
        s.mem.readWord (s.sp + BitVec.ofNat 32 (4 * (registersOf list).length)) := by
      rw [← State.readWord_toNat, BitVec.ofNat_toNat, BitVec.setWidth_eq]
    rw [hword] at hv ⊢
    refine ⟨_, (execPop_true_eq_bxWritePc hl (hi _ (Nat.lt_succ_self _))).trans (bxWritePc_of_return s ?_ hv),
      unloaded_pop hm hk hval⟩
    rwa [State.handlerMode, State.setSp_ipsr]

/-! ## What a return restores -/

/-- The frame at `fp` restored, the handler ended, whatever the sleep state. -/
theorem Unloaded.returned {s u : State} {list : BitVec 8} {n : Nat} (hu : Unloaded s u list n) (k : ReturnKind)
    {fp : Word} (hfp : fp.toNat % 4 = 0) (x : Sleep) :
    Returned s { u.endException.restore k fp (u.frameAt fp) with sleep := x } list n k.fromProcess fp := by
  obtain ⟨honly, hmain, hkept, hloaded⟩ := hu
  generalize u.regs = regs, u.msp = msp at honly
  subst honly
  have hword (a : Word) : (s.mem.readWord a).toNat = s.number a 4 := s.readWord_toNat a
  have hbit (i : Nat) : (s.mem.readWord (fp + 0x1C)).getLsbD i = (s.number (fp + 0x1C) 4).testBit i := by
    rw [← hword]; rfl
  have hsp := alignWord_returnedSp (s.mem.readWord (fp + 0x1C)) hfp
  rw [hword] at hsp
  have hmode : ((s.mem.readWord (fp + 0x1C)).extractLsb' 0 6).toNat = s.number (fp + 0x1C) 4 % 64 := by
    rw [BitVec.extractLsb'_toNat, Nat.shiftRight_zero, hword]
  have hkeep {r : Reg} (h4 : 4 ≤ r.val) (h11 : r.val ≤ 11) :
      (State.restore (State.endException { s with regs := regs, msp := msp }) k fp (s.frameAt fp)).readReg r =
        State.readReg { s with regs := regs, msp := msp } r := State.readReg_restore _ k fp _ h4 h11
  obtain ⟨h0, h1, h2, h3, h12⟩ := State.readReg_restore_stacked
    (State.endException { s with regs := regs, msp := msp }) k fp (s.frameAt fp)
  constructor
  case r0 => exact (congrArg BitVec.toNat h0).trans (hword _)
  case r1 => exact (congrArg BitVec.toNat h1).trans (hword _)
  case r2 => exact (congrArg BitVec.toNat h2).trans (hword _)
  case r3 => exact (congrArg BitVec.toNat h3).trans (hword _)
  case r12 => exact (congrArg BitVec.toNat h12).trans (hword _)
  case kept => exact fun r h4 h11 hlist => (hkeep h4 h11).trans (hkept r (by omega) hlist)
  case loaded =>
    intro r h4 hlist
    rw [← hloaded r hlist, ← State.readReg_toReg, ← State.readReg_toReg]
    exact congrArg BitVec.toNat (hkeep h4 (by have := r.isLt; simp only [LowReg.toReg, Fin.val_castLE]; omega))
  all_goals rw [State.restore_eq]
  case lr => exact hword _
  case pc => exact (clearBit0_toNat _).trans (by rw [← hword]; rfl)
  case n => exact hbit 31
  case z => exact hbit 30
  case c => exact hbit 29
  case v => exact hbit 28
  case thumb => exact hbit 24
  case ipsr => exact hmode
  case mainSp =>
    cases k.fromProcess with
    | true => exact hmain
    | false => exact (alignWord_alignWord _).trans hsp
  case processSp =>
    cases k.fromProcess with
    | true => exact (alignWord_alignWord _).trans hsp
    | false => rfl
  case active => exact State.isActive_endException _
  case memory => exact .of_eq rfl
  all_goals rfl

/-- The frame restored and then sleep-on-exit, which changes the sleep state only (R483). -/
theorem Unloaded.returned_sleepOnExit {s u : State} {list : BitVec 8} {n : Nat} (hu : Unloaded s u list n)
    (k : ReturnKind) {fp : Word} (hfp : fp.toNat % 4 = 0) :
    Returned s ((u.endException.restore k fp (u.frameAt fp)).sleepOnExit k) list n k.fromProcess fp ∧
      (k.toThread = false ∨ s.scb.sleepOnExit = false →
        ((u.endException.restore k fp (u.frameAt fp)).sleepOnExit k).sleep = s.sleep) := by
  have hkept : (u.endException.restore k fp (u.frameAt fp)).scb = s.scb ∧
      (u.endException.restore k fp (u.frameAt fp)).sleep = s.sleep := by
    rw [State.restore_eq, hu.only]
    exact ⟨rfl, rfl⟩
  obtain ⟨hscb, hsleep⟩ := hkept
  obtain ⟨x, hx, hsame⟩ := (u.endException.restore k fp (u.frameAt fp)).sleepOnExit_eq k
  rw [hx]
  exact ⟨hu.returned k hfp x, fun h => (hsame (by rwa [hscb])).trans hsleep⟩

/-! ## The two ends of an instruction that returns -/

theorem Unloaded.returnConsistent {s u : State} {list : BitVec 8} {n : Nat} (hu : Unloaded s u list n)
    (k : ReturnKind) : u.returnConsistent k = s.returnConsistent k := by
  rw [hu.only]
  rfl

/-- The frame lies above the words that the instruction has popped, or on the process stack (R441). -/
theorem Unloaded.returnFrame {s u : State} {list : BitVec 8} {n : Nat} (hu : Unloaded s u list n) (k : ReturnKind) :
    u.returnFrame k = if k.fromProcess then s.processSp else s.mainSp + BitVec.ofNat 32 (4 * n) := by
  have hp : u.processSp = s.processSp := by
    rw [hu.only]
    rfl
  rw [State.returnFrame, hp, hu.mainSp]

section loads
variable {s : State} {i : Instr} {v : Word} {list : BitVec 8} {n : Nat} {k : ReturnKind}

/-- A return that the active exceptions contradict stops by name. -/
theorem LoadsPc.exec_of_inconsistent (h : LoadsPc s i v list n) (hm : s.handlerMode = true)
    (hv : v.toNat / 16 = 0xFFFFFFF) (hk : returnKindOf v = some k) (hc : ¬s.returnConsistent k = true) :
    exec i s = .fault .inconsistentReturn := by
  obtain ⟨u, hx, hu⟩ := h.exec_eq hm hv
  rw [hx]
  exact exceptionReturn_of_inconsistent s hk (by rwa [hu.returnConsistent])

/-- A return that the active exceptions agree with restores the frame in memory, unless the stacked IPSR is of the other
mode. -/
theorem LoadsPc.exec_of_consistent (h : LoadsPc s i v list n) (hm : s.handlerMode = true)
    (hv : v.toNat / 16 = 0xFFFFFFF) (hk : returnKindOf v = some k) (hc : s.returnConsistent k = true) {fp : Word}
    (hfp : fp = if k.fromProcess then s.processSp else s.mainSp + BitVec.ofNat 32 (4 * n))
    (ho : s.ordinaryWords .read fp 8 = true) :
    ∃ u, Unloaded s u list n ∧ exec i s =
      if k.toThread = true ↔ s.number (fp + 0x1C) 4 % 64 = 0 then
        .next ((u.endException.restore k fp (u.frameAt fp)).sleepOnExit k)
      else .fault .inconsistentReturn := by
  obtain ⟨u, hx, hu⟩ := h.exec_eq hm hv
  have hmem : u.mem = s.mem := by rw [hu.only]
  have hmap : u.memMap = s.memMap := by rw [hu.only]
  have hnumber (a : Word) : u.number a 4 = s.number a 4 := State.number_congr fun _ _ => by rw [hmem]
  rw [← hu.returnFrame] at hfp
  subst hfp
  refine ⟨u, hu, hx.trans ?_⟩
  rw [← hnumber]
  exact exceptionReturn_of_consistent s hk (by rwa [hu.returnConsistent]) (State.ordinaryWords_of_memMap_eq hmap ho)

end loads

/-! ## The statements -/

/-- The three legal EXC_RETURN values (R441). -/
theorem excReturn_eq {toThread fromProcess : Bool} {v : Word}
    (hv : v = if toThread then if fromProcess then 0xFFFFFFFD else 0xFFFFFFF9 else 0xFFFFFFF1)
    (h : fromProcess = true → toThread = true) :
    v.toNat / 16 = 0xFFFFFFF ∧ returnKindOf v = some { fromProcess, toThread } := by
  subst hv
  cases toThread with
  | true => cases fromProcess <;> exact ⟨rfl, rfl⟩
  | false =>
    cases fromProcess with
    | true => cases h rfl
    | false => exact ⟨rfl, rfl⟩

/-- Settles O42: the return is consistent and to the mode of the stacked IPSR, so that it restores the frame. -/
theorem exceptionReturns : Obligations.ExceptionReturns := by
  intro s i v list n toThread fromProcess h hm hv hthread hactive halone
  dsimp only
  intro ho hmode
  obtain ⟨hv, hk⟩ := excReturn_eq hv hthread
  obtain ⟨u, hu, hx⟩ := h.exec_of_consistent hm hv hk (State.returnConsistent_iff.2 ⟨hactive, halone⟩) rfl ho
  have halign := aligned_iff.1 (State.ordinary_iff.1 (State.ordinaryWords_succ ho).1).1
  exact ⟨_, hx.trans (if_pos hmode), hu.returned_sleepOnExit _ halign⟩

/-- Settles O44: a reserved value selects nothing; the next three returns contradict the active exceptions, and the last
the stacked IPSR. -/
theorem badReturnsStop : Obligations.BadReturnsStop := by
  intro s i v list n h hm hv
  dsimp only
  have hkind := returnKindOf_eq v
  have legal (hl : v.toNat % 16 = 1 ∨ v.toNat % 16 = 9 ∨ v.toNat % 16 = 13) := hkind.trans (if_pos hl)
  refine ⟨fun h1 ht => ?_, fun hl hn => ?_, fun ht hn => ?_, fun h1 ha => ?_, fun ha ho hbad => ?_⟩
  · obtain ⟨u, hx, -⟩ := h.exec_eq hm hv
    exact hx.trans (exceptionReturn_of_reserved s u (hkind.trans (if_neg (not_or.2 ⟨h1, ht⟩))))
  · exact h.exec_of_inconsistent hm hv (legal hl) fun hc => by simp [(State.returnConsistent_iff.1 hc).1] at hn
  · refine h.exec_of_inconsistent hm hv (legal (.inr ht)) fun hc => ?_
    obtain ⟨-, hal⟩ := State.returnConsistent_iff.1 hc
    exact hn (hal.1 (decide_eq_true (by omega)))
  · refine h.exec_of_inconsistent hm hv (legal (.inl h1)) fun hc => ?_
    obtain ⟨-, hal⟩ := State.returnConsistent_iff.1 hc
    exact of_decide_eq_true (hal.2 ha) h1
  · have hl : v.toNat % 16 = 1 ∨ v.toNat % 16 = 9 ∨ v.toNat % 16 = 13 := by tauto
    have hthread : decide (v.toNat % 16 ≠ 1) = true ↔ v.toNat % 16 = 9 ∨ v.toNat % 16 = 13 := by
      rw [decide_eq_true_eq]; omega
    have halone : decide (v.toNat % 16 ≠ 1) = true ↔ ∀ e : Nat, s.isActive e = true → e = s.ipsr.toNat := by
      rw [decide_eq_true_eq]
      rcases hbad with ⟨ht, hal, -⟩ | ⟨h1, hal, -⟩
      · exact iff_of_true (by omega) hal
      · exact iff_of_false (not_not.2 h1) hal
    obtain ⟨u, -, hx⟩ := h.exec_of_consistent hm hv (legal hl) (State.returnConsistent_iff.2 ⟨ha, halone⟩)
      (by simp only [decide_eq_true_eq]) ho
    refine hx.trans (if_neg ?_)
    rw [hthread]
    omega

end Sys2Proof.Machine
end

section
/-!
SUPPORT. The extensions and the byte reversals (42_data_processing_b.md R314 to R316, R318 to R321).
-/

namespace Sys2Proof.Machine

/-- An instruction that moves into a low register a value with the property `p`: the flags are kept. -/
theorem exec_of_moveInto {i : Instr} {rd : LowReg} {r : Word} {s : State} {p : Word → Prop}
    (hi : exec i s = moveInto rd r s) (hp : p r) :
    ∃ t r, exec i s = .next t ∧ WritesLow s t rd r ∧ t.apsr = s.apsr ∧ p r :=
  ⟨_, r, hi, writesLow_advance s rd r, rfl, hp⟩

/-- A field of a word as the number that division and remainder give. -/
theorem extractLsb'_toNat_eq_div_mod {w : Nat} (v : BitVec w) (start len : Nat) :
    (v.extractLsb' start len).toNat = v.toNat / 2 ^ start % 2 ^ len := by
  rw [BitVec.extractLsb'_toNat, Nat.shiftRight_eq_div_pow]

theorem signExtend_toInt_eq {w : Nat} (x : BitVec w) (hw : w ≤ 32) :
    (x.signExtend 32).toInt = if 2 * x.toNat < 2 ^ w then (x.toNat : Int) else x.toNat - (2 ^ w : Nat) :=
  (BitVec.toInt_signExtend_of_le hw).trans (BitVec.toInt_eq_toNat_cond x)

/-- The bytes of the halfword from bit `start` up, exchanged. -/
theorem swapBytes_extractLsb'_toNat (v : Word) (start : Nat) :
    (swapBytes (v.extractLsb' start 16)).toNat =
      v.toNat / 2 ^ start % 256 * 256 + v.toNat / 2 ^ start / 256 % 256 := by
  simp only [swapBytes, toNat_append_eq, extractLsb'_toNat_eq_div_mod, pow_zero, Nat.div_one]
  omega

/-- Settles O15: each form moves its value into a register; what remains is that value as a number. -/
theorem extensionsAndReversals : Obligations.ExtensionsAndReversals := by
  intro s rd rm
  simp only [Nat.reducePow, Nat.div_one]
  refine ⟨exec_of_moveInto rfl ?sxtb, exec_of_moveInto rfl ?sxth, exec_of_moveInto rfl ?uxtb,
    exec_of_moveInto rfl ?uxth, exec_of_moveInto rfl ?rev, exec_of_moveInto rfl ?rev16, exec_of_moveInto rfl ?revsh⟩
  case sxtb | sxth =>
    rw [signExtend_toInt_eq _ (by decide), extractLsb'_toNat_eq_div_mod, pow_zero, Nat.div_one]
    omega
  case uxtb | uxth =>
    rw [BitVec.toNat_setWidth_of_le (by decide), extractLsb'_toNat_eq_div_mod, pow_zero, Nat.div_one]
    rfl
  case rev =>
    simp only [toNat_append_eq, extractLsb'_toNat_eq_div_mod, Nat.reducePow, Nat.div_one]
    omega
  case rev16 =>
    simp only [toNat_append_eq, swapBytes_extractLsb'_toNat, Nat.reducePow, Nat.div_one]
    omega
  case revsh =>
    rw [signExtend_toInt_eq _ (by decide), swapBytes_extractLsb'_toNat, pow_zero, Nat.div_one]
    omega

end Sys2Proof.Machine
end

section
/-!
SUPPORT. WFE, and the instructions that raise an exception: SVC, BKPT, UDF and UDF.W (44_misc.md R355, R370, R372, R377).
-/

namespace Sys2Proof.Machine

/-! ## Exceptions raised by an instruction -/

/-- SVCall with its frame and vector in memory is entered (R370, R430). -/
theorem raiseSvCall_entered {s : State} (hm : s.mem.wf = true) (h : s.canEnter 11 = true) :
    ∃ t, raiseSvCall s = .next t ∧ Entered s t 11 (s.pc + 2) := by
  obtain ⟨t, ht, hent⟩ := exceptionEntry_entered (s := s.setPending 11 true) s (s.pc + 2) (by decide) hm h
  exact ⟨t, ht, hent.of_setPending (by decide)⟩

/-- SVC at the priority of SVCall or a more urgent one escalates (R370). -/
theorem execSvc_of_priority_le {s : State} (imm8 : BitVec 8) (h : s.executionPriority ≤ s.priority 11) :
    exec (.svc imm8) s = raiseHardFault .svcPriority s s := if_pos h

/-- SVC below the priority of SVCall raises it (R370). -/
theorem execSvc_of_priority_lt {s : State} (imm8 : BitVec 8) (h : s.priority 11 < s.executionPriority) :
    exec (.svc imm8) s = raiseSvCall s := if_neg (Int.not_le.2 h)

/-- Settles O36: SVC raises SVCall, whose frame and vector are in memory. -/
theorem svcEntersSvCall : Obligations.SvcEntersSvCall := by
  intro s imm8 hm hp he
  rw [execSvc_of_priority_lt imm8 hp]
  exact raiseSvCall_entered hm he

/-- Settles O37: SVC raises HardFault in place of SVCall, with the SVC as the faulting instruction. -/
theorem svcEscalates : Obligations.SvcEscalates := by
  intro s imm8 hm hle hp he
  rw [execSvc_of_priority_le imm8 hle]
  exact raiseHardFault_entered .svcPriority hm hp he

/-- Settles O38: each of these is a HardFault raised by the instruction, of cause [2] or [7]. -/
theorem faultInstructions : Obligations.FaultInstructions := by
  intro s imm8 imm16 hm hp he i hi
  simp only [List.mem_cons, List.not_mem_nil, or_false] at hi
  obtain rfl | rfl | rfl := hi
  · exact raiseHardFault_entered .breakpoint hm hp he
  · exact raiseHardFault_entered .undefined hm hp he
  · exact raiseHardFault_entered .undefined hm hp he

/-! ## WFE under each reading of D4 (notes/assumptions/2.md) -/

theorem execWfe_of_nop {s : State} (h : Config.wfeReading s.freeIndex = .nop) :
    exec .wfe s = .next (s.afterDraw.advance 2) := by
  simp only [exec, execWfe, State.drawWfeReading, h]

/-- The generic reading leaves the event register clear: it was set and is cleared, or it was clear already. -/
theorem execWfe_of_generic {s : State} (h : Config.wfeReading s.freeIndex = .generic) :
    exec .wfe s = .next ({ s with
      event := false
      sleep := if s.event then s.sleep else .asleep .event s.scb.sleepDeep }.afterDraw.advance 2) := by
  simp only [exec, execWfe, State.drawWfeReading, h, State.afterDraw_event]
  cases he : s.event with
  | true => rfl
  | false => simp [State.fallAsleep, State.afterDraw, he]

theorem execWfe_of_fault {s : State} (h : Config.wfeReading s.freeIndex = .fault) :
    exec .wfe s = raiseHardFault .undefined s s.afterDraw := by
  simp only [exec, execWfe, State.drawWfeReading, h]

/-- Nothing that an exception entry reads or leaves depends on the number of draws so far. -/
theorem Entered.of_afterDraw {s t : State} {e : Nat} {ret : Word} (h : Entered s.afterDraw t e ret) :
    Entered s t e ret := { h with }

/-- Under the third reading WFE is a faulting instruction (R428, D4). -/
theorem execWfe_entered {s : State} (hr : Config.wfeReading s.freeIndex = .fault) (hm : s.mem.wf = true)
    (hp : -1 < s.executionPriority) (he : s.canEnter 3 = true) :
    ∃ t, exec .wfe s = .next t ∧ Entered s t 3 s.pc := by
  rw [execWfe_of_fault hr]
  obtain ⟨t, ht, hent⟩ := raiseHardFault_entered (f := s) (s := s.afterDraw) .undefined hm hp he
  exact ⟨t, ht, hent.of_afterDraw⟩

/-- A draw, which no register shows, and going on to the next instruction. -/
theorem registersOnly_afterDraw_advance (s : State) (n : Nat) :
    RegistersOnly s (s.afterDraw.advance n) (BitVec.ofNat 32 n) [] :=
  .advance n rfl (.of_eq [] rfl rfl rfl rfl rfl rfl) (by constructor <;> rfl) rfl

/-- Settles O35: what WFE does under each reading; the last clause is by cases on the reading that holds. -/
theorem wfeReadings : Obligations.WfeReadings := by
  intro s
  refine ⟨fun hr => ?nop, fun hr => ?generic, execWfe_entered, fun hm hp he => ?goesOn⟩
  case nop => exact ⟨_, execWfe_of_nop hr, rfl, registersOnly_afterDraw_advance s 2⟩
  case generic => exact ⟨_, execWfe_of_generic hr, rfl, rfl, rfl, registersOnly_afterDraw_advance _ 2⟩
  case goesOn =>
    cases hr : Config.wfeReading s.freeIndex with
    | nop => exact ⟨_, execWfe_of_nop hr, rfl⟩
    | generic => exact ⟨_, execWfe_of_generic hr, rfl⟩
    | fault =>
      obtain ⟨t, ht, hent⟩ := execWfe_entered hr hm hp he
      exact ⟨t, ht, hent.lockup⟩

end Sys2Proof.Machine
end

section
/-!
SUPPORT. The interrupt lines and SysTick: one sample of the lines, one tick of the counter, and word accesses to the
timer's registers (60_exceptions.md R461, R470, R471).
-/

namespace Sys2Proof.Machine

/-! ## One sample of the lines (R461) -/

theorem State.irqActive_getLsbD (s : State) {n : Nat} (hn : n < 32) :
    s.irqActive.getLsbD n = s.isActive (16 + n) := by
  simp [State.irqActive, State.isActive, hn]

theorem State.isPending_sampleLines (s : State) (lines : BitVec 32) {n : Nat} (hn : n < 32) :
    (s.sampleLines lines).isPending (16 + n) = (s.isPending (16 + n) ||
      (lines.getLsbD n && (!s.isActive (16 + n) || !s.nvic.lastLine.getLsbD n))) := by
  refine (s.isPending_withIrqPending
    (s.irqPending ||| lines &&& (~~~s.irqActive ||| ~~~s.nvic.lastLine)) hn).trans ?_
  rw [BitVec.getLsbD_or, BitVec.getLsbD_and, BitVec.getLsbD_or, BitVec.getLsbD_not, BitVec.getLsbD_not,
    s.irqPending_getLsbD hn, s.irqActive_getLsbD hn]
  simp [hn]

/-- Settles O52: a sample by `State.isPending_sampleLines`, the store to ISPR by what O53 says of it. -/
theorem linesPendInterrupts : Obligations.LinesPendInterrupts := by
  intro s lines n hn
  refine ⟨s.isPending_sampleLines lines hn, rfl, fun w => ?_, BitVec.getLsbD_zero⟩
  obtain ⟨-, -, ⟨t, v, ht, -, hbits, -⟩, -⟩ := nvicSetAndClear s w
  exact ⟨t, ht, (hbits n hn).2⟩

/-! ## One tick of the counter (R470) -/

theorem State.tick_of_disabled {s : State} (h : s.systick.enable = false) : s.tick = s :=
  if_neg (by rw [h]; decide)

/-- A counter at 0 reloads. -/
theorem State.tick_of_zero {s : State} (h : s.systick.enable = true) (h0 : s.systick.current = 0) :
    s.tick = { s with systick := { s.systick with current := s.systick.reload } } :=
  (if_pos h).trans (if_pos h0)

/-- The counter counted down by one from a value other than 0, with COUNTFLAG set when that reaches 0. -/
def State.countedDown (s : State) : State :=
  { s with systick := { s.systick with
    current := s.systick.current - 1
    countFlag := s.systick.countFlag || decide (s.systick.current = 1) } }

/-- A counter not at 0 counts down; when it reaches 0, TICKINT makes exception 15 pending. -/
theorem State.tick_of_ne_zero {s : State} (h : s.systick.enable = true) (h0 : s.systick.current ≠ 0) :
    s.tick = if s.systick.tickInt && decide (s.systick.current = 1) then s.countedDown.setPending 15 true
      else s.countedDown := by
  have hzero : s.systick.current - 1 = 0 ↔ s.systick.current = 1 := sub_eq_zero
  simp only [State.tick, h, h0, hzero, if_true, if_false]
  by_cases h1 : s.systick.current = 1
  · simp only [State.countedDown, h, h1, if_true, decide_true, Bool.and_true, Bool.or_true]
  · simp only [State.countedDown, h, h1, if_false, decide_false, Bool.and_false, Bool.or_false, Bool.false_eq_true]

/-- Settles O58: the three cases of a tick. -/
theorem sysTickCounts : Obligations.SysTickCounts := by
  intro s
  refine ⟨State.tick_of_disabled, fun he h0 => ?_, fun he h0 => ?_⟩
  · rw [State.tick_of_zero he (BitVec.eq_of_toNat_eq h0)]
    exact ⟨rfl, rfl, rfl⟩
  · have hne : s.systick.current ≠ 0 := fun h => h0 (congrArg BitVec.toNat h)
    have hone : s.systick.current.toNat = 1 ↔ s.systick.current = 1 := (BitVec.toNat_eq (y := 1)).symm
    have hdown : (s.systick.current - 1).toNat = s.systick.current.toNat - 1 :=
      BitVec.toNat_sub_of_le (BitVec.le_def.2 (Nat.one_le_iff_ne_zero.2 h0))
    simp only [State.tick_of_ne_zero he hne, hone]
    split
    · rename_i hpend
      refine ⟨hdown, rfl, ?_, fun e he15 => ?_⟩
      · rw [State.isPending_setPending _ (by decide), if_pos rfl, hpend, Bool.or_true]
      · rw [State.isPending_setPending _ (by decide), if_neg he15]
        rfl
    · rename_i hpend
      refine ⟨hdown, rfl, ?_, fun _ _ => rfl⟩
      rw [Bool.eq_false_of_not_eq_true hpend, Bool.or_false]
      rfl

/-! ## The registers of SysTick (R80 to R84, R471) -/

theorem registerAt_systCsr : RegisterAt 0xE000E010 .systCsr := ⟨rfl, rfl, rfl⟩
theorem registerAt_systRvr : RegisterAt 0xE000E014 .systRvr := ⟨rfl, rfl, rfl⟩
theorem registerAt_systCvr : RegisterAt 0xE000E018 .systCvr := ⟨rfl, rfl, rfl⟩
theorem registerAt_systCalib : RegisterAt 0xE000E01C .systCalib := ⟨rfl, rfl, rfl⟩

/-- SYST_CSR as a number: COUNTFLAG and the three control bits (R81). -/
theorem State.systCsrValue_toNat (s : State) : s.systCsrValue.toNat =
    65536 * bitValue s.systick.countFlag + 4 * bitValue s.systick.clkSource + 2 * bitValue s.systick.tickInt
      + bitValue s.systick.enable := by
  simp only [State.systCsrValue, toNat_append_eq, bitValue_eq_toNat, BitVec.toNat_ofBool, BitVec.toNat_ofNat]
  omega

/-- Settles O59, register by register; the tick after a write of SYST_CVR finds the counter at 0. -/
theorem sysTickRegisters : Obligations.SysTickRegisters := by
  intro s w
  refine ⟨⟨_, _, State.loadWord_register registerAt_systCsr, s.systCsrValue_toNat, rfl, rfl, rfl⟩,
    ⟨_, State.storeWord_register registerAt_systCsr, rfl, rfl, rfl, rfl, rfl⟩,
    ⟨_, State.storeWord_register registerAt_systRvr, BitVec.extractLsb'_toNat 0 24 w, rfl⟩,
    ⟨_, State.storeWord_register registerAt_systCvr, rfl, rfl, rfl, rfl, fun he => ?_⟩,
    ⟨_, State.loadWord_register registerAt_systCvr, ?_⟩,
    State.loadWord_register registerAt_systCalib, State.storeWord_register registerAt_systCalib⟩
  · obtain ⟨-, hzero, -⟩ := sysTickCounts _
    exact hzero he rfl
  · exact BitVec.toNat_setWidth_of_le (by decide)

end Sys2Proof.Machine
end

section
/-!
SUPPORT. The stack frame of an exception: its address, its PSR, and the stack pointer that the return finds from them
(60_exceptions.md R430, R431, R440).
-/

namespace Sys2Proof.Machine

theorem exceptionNumber_bounds {e : Nat} (he : e ∈ exceptionNumbers) : 0 < e ∧ e < 48 := by
  have := mem_exceptionNumbers.1 he
  omega

/-- Settles O40: the entry of O36 and O37, for every exception number. -/
theorem entryIsTaken : Obligations.EntryIsTaken := fun s _ ret he hm h =>
  exceptionEntry_entered s ret (exceptionNumber_bounds he).2 hm h

/-! ## The address of the frame (R431) -/

/-- Clearing bit [2] of a word-aligned address gives a multiple of 8. -/
theorem and_not_four_toNat {v : Word} (h : v.toNat % 4 = 0) : (v &&& ~~~4#32).toNat = v.toNat / 8 * 8 := by
  have hclear : v &&& ~~~4#32 = (v >>> 3) <<< 3 :=
    calc v &&& ~~~4#32 = alignWord v &&& ~~~4#32 := by rw [(alignWord_eq_self_iff v).2 h]
      _ = v &&& BitVec.allOnes 32 <<< 3 := BitVec.and_assoc ..
      _ = (v >>> 3) <<< 3 := and_allOnes_shiftLeft v 3
  rw [hclear]
  exact toNat_shiftRight_shiftLeft v 3

theorem or_four {v : Word} (h : v.toNat % 8 = 0) : v ||| 4 = v + 4 := by
  have hv : v.toNat = (v.toNat / 8) <<< 3 := by
    rw [Nat.shiftLeft_eq]
    omega
  have hor : v.toNat ||| 4 = v.toNat + 4 := by
    rw [hv, Nat.shiftLeft_add_eq_or_of_lt (by decide)]
  have hadd : (v + 4).toNat = v.toNat + 4 := by bv_omega
  exact BitVec.eq_of_toNat_eq (hor.trans hadd.symm)

theorem State.framePointer_toNat (s : State) : s.framePointer.toNat = (s.sp - 32).toNat / 8 * 8 := by
  refine and_not_four_toNat ?_
  have := s.sp_mod_four
  rw [BitVec.toNat_sub, BitVec.toNat_ofNat]
  omega

theorem State.framePointer_of_mod_eight {s : State} (h : s.sp.toNat % 8 = 0) : s.framePointer = s.sp - 32 := by
  apply BitVec.eq_of_toNat_eq
  rw [s.framePointer_toNat]
  bv_omega

theorem State.framePointer_of_not_mod_eight {s : State} (h : s.sp.toNat % 8 ≠ 0) : s.framePointer = s.sp - 36 := by
  have := s.sp_mod_four
  apply BitVec.eq_of_toNat_eq
  rw [s.framePointer_toNat]
  bv_omega

/-! ## The stacked PSR (R430, R431) -/

theorem State.sp_getLsbD_two (s : State) : s.sp.getLsbD 2 = decide (s.sp.toNat % 8 ≠ 0) := by
  have := s.sp_mod_four
  rw [BitVec.getLsbD, Nat.testBit_eq_decide_div_mod_eq, decide_eq_decide]
  omega

/-- The bits of the stacked PSR: the flags, EPSR.T, the alignment of the stack pointer, and IPSR. -/
theorem State.stackedPsr_bits (s : State) :
    s.stackedPsr.getLsbD 31 = s.apsr.n ∧ s.stackedPsr.getLsbD 30 = s.apsr.z ∧ s.stackedPsr.getLsbD 29 = s.apsr.c ∧
      s.stackedPsr.getLsbD 28 = s.apsr.v ∧ s.stackedPsr.getLsbD 24 = s.thumb ∧
      s.stackedPsr.getLsbD 9 = decide (s.sp.toNat % 8 ≠ 0) ∧ s.stackedPsr.toNat % 64 = s.ipsr.toNat := by
  have hpsr := s.stackedPsr_toNat
  have hn := bitValue_le_one s.apsr.n
  have hz := bitValue_le_one s.apsr.z
  have hc := bitValue_le_one s.apsr.c
  have hv := bitValue_le_one s.apsr.v
  have hthumb := bitValue_le_one s.thumb
  have halign := bitValue_le_one (s.sp.getLsbD 2)
  have hipsr := s.ipsr.isLt
  rw [← s.sp_getLsbD_two]
  refine ⟨?_, ?_, ?_, ?_, ?_, ?_, by omega⟩
  all_goals exact getLsbD_eq_of_div_mod (by omega)

/-- Above the frame, and past the skipped word where bit [9] of the stacked PSR says that there is one, lies the old
stack pointer. -/
theorem State.framePointer_or_skipped (s : State) :
    (s.framePointer + 32) ||| (if s.stackedPsr.toNat.testBit 9 then 4 else 0) = s.sp := by
  obtain ⟨-, -, -, -, -, h9, -⟩ := s.stackedPsr_bits
  change s.stackedPsr.toNat.testBit 9 = _ at h9
  rw [h9]
  by_cases h8 : s.sp.toNat % 8 = 0
  · rw [State.framePointer_of_mod_eight h8]
    simp [h8]
  · have hfp := s.framePointer_toNat
    have htop : (s.framePointer + 32).toNat % 8 = 0 := by bv_omega
    rw [if_pos (decide_eq_true h8), or_four htop, State.framePointer_of_not_mod_eight h8, BitVec.add_assoc]
    exact BitVec.sub_add_cancel s.sp 36

theorem alignWord_eq_self_iff_bits (v : Word) : alignWord v = v ↔ v.getLsbD 0 = false ∧ v.getLsbD 1 = false := by
  simp only [alignWord_eq_self_iff, BitVec.getLsbD, Nat.testBit_eq_decide_div_mod_eq, decide_eq_false_iff_not]
  omega

/-- A return leaves bits [1:0] of the stack pointer clear without the model's clearing them (R35, R440). -/
theorem alignWord_returnedSp_eq_self {fp : Word} (psr : Word) (h : fp.toNat % 4 = 0) :
    alignWord (returnedSp fp psr) = returnedSp fp psr := by
  have htop : alignWord (fp + 0x20) = fp + 0x20 := by
    rw [alignWord_eq_self_iff]
    bv_omega
  obtain ⟨h0, h1⟩ := (alignWord_eq_self_iff_bits _).1 htop
  have low (i : Nat) (hi : (0x200 : Word).getLsbD (7 + i) = false) :
      (returnedSp fp psr).getLsbD i = (fp + 0x20).getLsbD i := by
    have hclear : ((psr &&& 0x200) >>> 7).getLsbD i = false := by
      rw [BitVec.getLsbD_ushiftRight, BitVec.getLsbD_and, hi, Bool.and_false]
    exact BitVec.getLsbD_or.trans ((congrArg (_ || ·) hclear).trans (Bool.or_false _))
  exact (alignWord_eq_self_iff_bits _).2 ⟨(low 0 rfl).trans h0, (low 1 rfl).trans h1⟩

/-- The return finds the stack pointer of the moment of entry. -/
theorem State.returnedSp_framePointer (s : State) : returnedSp s.framePointer s.stackedPsr = s.sp := by
  have halign : s.framePointer.toNat % 4 = 0 := by
    rw [s.framePointer_toNat]
    omega
  rw [← alignWord_returnedSp_eq_self _ halign, alignWord_returnedSp _ halign, s.framePointer_or_skipped]

/-- The word below the stack pointer is skipped when that is not a multiple of 8; it lies above the frame. -/
theorem Entered.skipped {s t : State} {e : Nat} {ret : Word} (h : Entered s t e ret) (h8 : s.sp.toNat % 8 ≠ 0) :
    t.number (s.sp - 4) 4 = s.number (s.sp - 4) 4 := by
  refine State.number_congr fun i hi => h.memory _ fun j hj heq => ?_
  have habove : byteAddress (s.sp - 4) i = byteAddress s.framePointer (32 + i) := by
    have hsp : s.sp - 4 = s.framePointer + 32 := by
      rw [State.framePointer_of_not_mod_eight h8]
      bv_omega
    rw [byteAddress, byteAddress, hsp, BitVec.ofNat_add, BitVec.add_assoc]
    rfl
  have := byteAddress_inj (by omega) (by omega) (heq.trans habove)
  omega

theorem Entered.stackedPsr {s t : State} {e : Nat} {ret : Word} (h : Entered s t e ret) :
    t.number (s.framePointer + 0x1C) 4 = s.stackedPsr.toNat := h.xpsr.trans s.stackedPsr_toNat.symm

/-- Settles O41: the address by its value, the rest by what an entry leaves. -/
theorem frameIsAligned : Obligations.FrameIsAligned := by
  intro s
  obtain ⟨-, -, -, -, -, h9, -⟩ := s.stackedPsr_bits
  refine ⟨?_, State.framePointer_of_mod_eight, State.framePointer_of_not_mod_eight, h9, s.returnedSp_framePointer,
    fun e ret he hm hc h8 => ?_⟩
  · rw [s.framePointer_toNat]
    omega
  · obtain ⟨t, ht, hent⟩ := entryIsTaken s e ret he hm hc
    exact ⟨t, ht, hent.r0, hent.stackedPsr, hent.skipped h8⟩

end Sys2Proof.Machine
end

section
/-!
SUPPORT. An exception entered and returned from: what the entry stacks is what the return restores
(60_exceptions.md R430, R434, R440).
-/

namespace Sys2Proof.Machine

/-! ## The return from an exception just entered -/

theorem State.onProcessStack_of_handlerMode {s : State} (h : s.handlerMode = true) : s.onProcessStack = false := by
  simp [State.onProcessStack, h]

section entered
variable {s t : State} {e : Nat} {ret : Word}

theorem Entered.handlerMode (h : Entered s t e ret) (he : e ∈ exceptionNumbers) : t.handlerMode = true := by
  refine bne_iff_ne.2 fun h0 => ?_
  have hipsr := h.ipsr
  rw [h0] at hipsr
  exact absurd hipsr (exceptionNumber_bounds he).1.ne

/-- Besides the exception that was entered, the active ones are those of before (R430). -/
theorem Entered.alone_iff (h : Entered s t e ret) (hidle : s.isActive e = false) :
    (∀ k : Nat, t.isActive k = true → k = e) ↔ s.nvic.active = 0 := by
  rw [State.active_eq_zero_iff]
  refine forall_congr' fun k => ?_
  rw [h.active k]
  by_cases hk : k = e
  · simp [hk, hidle]
  · simp [hk]

/-- BX with the EXC_RETURN value that the entry gave is a return to the mode, the stack and the frame of the entry. -/
theorem Entered.returned (h : Entered s t e ret) (he : e ∈ exceptionNumbers) (hidle : s.isActive e = false)
    (hmode : s.handlerMode = true ↔ s.nvic.active ≠ 0) (ho : s.ordinaryWords .read s.framePointer 8 = true) :
    ∃ u, exec (.bx 14) t = .next u ∧ Returned t u 0 0 s.onProcessStack s.framePointer := by
  have hlr : t.lr =
      if !s.handlerMode then if s.onProcessStack then 0xFFFFFFFD else 0xFFFFFFF9 else 0xFFFFFFF1 := by
    rw [h.lr]
    cases hm : s.handlerMode <;> simp [State.onProcessStack, hm]
  have hthread : s.onProcessStack = true → (!s.handlerMode) = true := fun hp => (Bool.and_eq_true_iff.1 hp).1
  have hactive : t.isActive t.ipsr.toNat = true := by rw [h.ipsr, h.active, decide_eq_true rfl, Bool.true_or]
  have halone : (!s.handlerMode) = true ↔ ∀ k : Nat, t.isActive k = true → k = t.ipsr.toNat := by
    rw [h.ipsr, h.alone_iff hidle, Bool.not_eq_true', ← Bool.not_eq_true, hmode, not_not]
  have hfp : (if s.onProcessStack then t.processSp else t.mainSp + BitVec.ofNat 32 (4 * 0)) = s.framePointer := by
    rw [h.processSp, h.mainSp, Nat.mul_zero, BitVec.add_zero]
    cases s.onProcessStack <;> rfl
  obtain ⟨-, -, -, -, -, -, hipsr⟩ := s.stackedPsr_bits
  have hstacked : (!s.handlerMode) = true ↔ t.number (s.framePointer + 0x1C) 4 % 64 = 0 := by
    rw [h.stackedPsr, hipsr, State.handlerMode]
    simp [BitVec.toNat_eq]
  have hret := exceptionReturns t (.bx 14) t.lr 0 0 _ _ (.bx 14 (by decide) (by decide)) (h.handlerMode he) hlr hthread
    hactive halone
  dsimp only at hret
  rw [hfp] at hret
  obtain ⟨u, hu, hr, -⟩ := hret (State.ordinaryWords_of_memMap_eq h.memMap ho) hstacked
  exact ⟨u, hu, hr⟩

/-! ## What the return restores -/

variable {u : State}

/-- R0 to R3 and R12 come back from the frame, and R4 to R11 have been kept. -/
theorem Returned.regs_eq (hr : Returned t u 0 0 s.onProcessStack s.framePointer) (h : Entered s t e ret) :
    u.regs = s.regs := by
  have hreg (r : Reg) (hlt : r.val < 13) : u.readReg r = s.readReg r := by
    have hcases : r = 0 ∨ r = 1 ∨ r = 2 ∨ r = 3 ∨ r = 12 ∨ (4 ≤ r.val ∧ r.val ≤ 11) := by
      revert r; decide
    rcases hcases with rfl | rfl | rfl | rfl | rfl | ⟨h4, h11⟩
    · exact BitVec.eq_of_toNat_eq (hr.r0.trans h.r0)
    · exact BitVec.eq_of_toNat_eq (hr.r1.trans h.r1)
    · exact BitVec.eq_of_toNat_eq (hr.r2.trans h.r2)
    · exact BitVec.eq_of_toNat_eq (hr.r3.trans h.r3)
    · exact BitVec.eq_of_toNat_eq (hr.r12.trans h.r12)
    · rw [hr.kept r h4 h11 BitVec.getLsbD_zero, State.readReg_of_lt _ hlt, State.readReg_of_lt _ hlt]
      exact h.registers ⟨r.val, hlt⟩
  refine Vector.ext fun i hi => ?_
  have hi' := hreg ⟨i, by omega⟩ hi
  rwa [State.readReg_of_lt _ hi, State.readReg_of_lt _ hi] at hi'

/-- The flags, EPSR.T and IPSR come back from the stacked PSR. -/
theorem Returned.psr_eq (hr : Returned t u 0 0 s.onProcessStack s.framePointer) (h : Entered s t e ret) :
    u.apsr = s.apsr ∧ u.thumb = s.thumb ∧ u.ipsr = s.ipsr := by
  obtain ⟨hn, hz, hc, hv, hthumb, -, hipsr⟩ := s.stackedPsr_bits
  have hpsr := h.stackedPsr
  refine ⟨?_, ?_, BitVec.eq_of_toNat_eq ?_⟩
  · calc u.apsr = ⟨u.apsr.n, u.apsr.z, u.apsr.c, u.apsr.v⟩ := rfl
      _ = ⟨s.apsr.n, s.apsr.z, s.apsr.c, s.apsr.v⟩ := by
        rw [hr.n, hr.z, hr.c, hr.v, hpsr, ← hn, ← hz, ← hc, ← hv]; rfl
  · rw [hr.thumb, hpsr, ← hthumb]; rfl
  · rw [hr.ipsr, hpsr, hipsr]

/-- Both stack pointers are those of before: the one with the frame by bit [9] of the stacked PSR (R431). -/
theorem Returned.stacks_eq (hr : Returned t u 0 0 s.onProcessStack s.framePointer) (h : Entered s t e ret) :
    u.mainSp = s.mainSp ∧ u.processSp = s.processSp := by
  have hmain := hr.mainSp
  have hprocess := hr.processSp
  rw [h.stackedPsr, s.framePointer_or_skipped, State.sp] at hmain hprocess
  rw [hmain, hprocess, h.mainSp, h.processSp]
  cases s.onProcessStack <;> simp

/-- The exception has become active and inactive again, and no other has changed. -/
theorem Returned.active_eq (hr : Returned t u 0 0 s.onProcessStack s.framePointer) (h : Entered s t e ret)
    (hidle : s.isActive e = false) : u.nvic.active = s.nvic.active := by
  refine BitVec.eq_of_getLsbD_eq fun k _ => (hr.active k).trans ?_
  rw [h.ipsr, h.active]
  by_cases hk : k = e
  · rw [hk, decide_eq_false (not_not.2 rfl), Bool.and_false]
    exact hidle.symm
  · simp [hk, State.isActive]

/-- Returning writes no memory, so that only the frame has changed. -/
theorem Returned.memory_outside (hr : Returned t u 0 0 s.onProcessStack s.framePointer) (h : Entered s t e ret) :
    KeepsMemoryOutside s u s.framePointer 32 := fun k hk => (hr.memory k).trans (h.memory k hk)

end entered

theorem State.Inv.spsel_eq {s : State} (h : s.Inv) : s.onProcessStack = s.spsel := by
  cases hm : s.handlerMode
  · simp [State.onProcessStack, hm]
  · rw [State.onProcessStack_of_handlerMode hm, h.spsel hm]

/-- Settles O43: the entry by O40 and the return by O42. -/
theorem entryThenReturn : Obligations.EntryThenReturn := by
  intro s e hs he hidle hmode _ hc ho
  have hinv := State.inv_iff.1 hs
  obtain ⟨t, ht, hent⟩ := entryIsTaken s e s.pc he hinv.mem hc
  obtain ⟨u, hu, hr⟩ := hent.returned he hidle hmode ho
  obtain ⟨hapsr, hthumb, hipsr⟩ := hr.psr_eq hent
  obtain ⟨hmain, hprocess⟩ := hr.stacks_eq hent
  have hlr : u.lr = s.lr := BitVec.eq_of_toNat_eq (hr.lr.trans hent.stackedLr)
  have hpc : u.pc = s.pc := by
    have heven := getLsbD_zero_eq_false_iff.1 hinv.pc
    have hstacked := hent.returnAddress
    have hpc := hr.pc
    exact BitVec.eq_of_toNat_eq (by omega)
  have hpending (k : Nat) (hk : k ≠ e) : u.isPending k = s.isPending k := by
    have hsame : u.isPending k = t.isPending k := congrArg (·.getLsbD k) hr.pending
    rw [hsame, hent.pending k, decide_eq_false hk]
    exact Bool.true_and _
  exact ⟨t, u, ht, hu, hr.regs_eq hent, hlr, hpc, hapsr, hthumb, hipsr, hr.spsel.trans hinv.spsel_eq, hmain, hprocess,
    hr.primask.trans hent.primask, hr.active_eq hent hidle, hpending, hr.scb.trans hent.scb, hr.memory_outside hent⟩

end Sys2Proof.Machine
end

section
/-!
SUPPORT. The exception that a step takes, and sleep-on-exit (60_exceptions.md R416, R425, R480, R483).
-/

namespace Sys2Proof.Machine

/-! ## The exception that a step takes (R416, R425) -/

theorem State.nextException_eq_none {s : State} (h : s.nextException = none) :
    ∀ e ∈ exceptionNumbers, ¬s.takeable e = true := by
  have hnone := State.nextException_isSome_iff.not.1 (by rw [h]; decide)
  push Not at hnone
  exact hnone

/-- A step of an awake machine without a reset is its core step, in the state that the agents leave (R24). -/
theorem step_eq_coreStep {s : State} (hr : s.noReset) (hl : s.ready.lockup = false) (hs : s.ready.sleep = .awake) :
    step s = s.ready.coreStep s.takeInput.1.takeException := by
  have hlock : ((s.takeInput.2).runAgents s.takeInput.1).lockup = false := (State.wakeUp_lockup _ _).symm.trans hl
  unfold State.ready at hs ⊢
  simp [step_eq_proceed hr, State.proceed, hlock, hs]

theorem State.coreStep_of_nextException {s : State} {b : Bool} {e : Nat} (hb : b = true)
    (h : s.nextException = some e) : s.coreStep b = exceptionEntry s e s.pc s := by
  rw [State.coreStep, hb, if_pos rfl, h]

/-- Settles O45: what `nextException` chooses, and a step that takes it. -/
theorem nextExceptionIsMostUrgent : Obligations.NextExceptionIsMostUrgent := by
  refine ⟨fun s e h => ?_, fun s h f hf hft => ?_, fun s e => ?_⟩
  · obtain ⟨hnum, htake, hmin⟩ := State.nextException_eq_some h
    obtain ⟨hp, hen, hlt⟩ := State.takeable_iff.1 htake
    exact ⟨hnum, hp, hen, hlt, fun f hf hfp hfe hft => hmin f hf (State.takeable_iff.2 ⟨hfp, hfe, hft⟩)⟩
  · exact State.nextException_eq_none h f hf (State.takeable_iff.2 hft)
  · dsimp only
    intro hr hl hs htake hnext
    have hstep : step s = exceptionEntry s.ready e s.ready.pc s.ready :=
      (step_eq_coreStep hr hl hs).trans (State.coreStep_of_nextException htake hnext)
    refine ⟨hstep, fun hm hc => ?_⟩
    rw [hstep]
    exact entryIsTaken _ e _ (State.nextException_eq_some hnext).1 hm hc

/-! ## Sleep-on-exit (R480, R483) -/

theorem State.isEnabled_congr {s t : State} (h : t.nvic.enable = s.nvic.enable) (e : Nat) :
    t.isEnabled e = s.isEnabled e := by
  rw [State.isEnabled, State.isEnabled, h]

/-- An enabled exception is more urgent than Thread mode's 256: HardFault, or a priority that is a byte (R415). -/
theorem State.priority_lt_of_enabled {s : State} {e : Nat} (he : e ∈ exceptionNumbers) (h : s.isEnabled e = true) :
    s.priority e < 256 := by
  by_cases h3 : e = 3
  · subst h3
    exact (by decide : (-1 : Int) < 256)
  · obtain ⟨b, hp, -⟩ := s.priority_eq_byte he (State.isEnabled_ne_two h) h3
    have := b.isLt
    omega

/-- With no exception active every enabled pending exception ends the sleep. -/
theorem State.wakeCondition_iff_of_idle {s : State} (h : ∀ e : Nat, s.isActive e = false) :
    s.wakeCondition = true ↔ ∃ e ∈ exceptionNumbers, s.isPending e = true ∧ s.isEnabled e = true := by
  rw [State.wakeCondition_iff]
  constructor
  · rintro ⟨e, he, hp, hen, -⟩
    exact ⟨e, he, hp, hen⟩
  · rintro ⟨e, he, hp, hen⟩
    exact ⟨e, he, hp, hen, fun a _ ha => by simp [h a] at ha, State.priority_lt_of_enabled he hen⟩

theorem State.sleepOnExit_of_toThread {s : State} {k : ReturnKind} (hk : k.toThread = true)
    (h : s.scb.sleepOnExit = true) : s.sleepOnExit k = if s.wakeCondition then s else s.fallAsleep .interrupt := by
  cases hw : s.wakeCondition <;> simp [State.sleepOnExit, hk, h, hw]

/-- A return from the only active exception leaves the wake-up condition of Thread mode. -/
theorem Returned.wakeCondition_iff {s t : State} {list : BitVec 8} {n : Nat} {p : Bool} {fp : Word}
    (h : Returned s t list n p fp) (halone : ∀ e : Nat, s.isActive e = true → e = s.ipsr.toNat) :
    t.wakeCondition = true ↔ ∃ e ∈ exceptionNumbers, s.isPending e = true ∧ s.isEnabled e = true := by
  have hidle (e : Nat) : t.isActive e = false := by
    rw [h.active e]
    by_contra hne
    obtain ⟨ha, hd⟩ := Bool.and_eq_true_iff.1 (Bool.eq_true_of_not_eq_false hne)
    exact of_decide_eq_true hd (halone e ha)
  have hpending (e : Nat) : t.isPending e = s.isPending e := congrArg (·.getLsbD e) h.pending
  simp only [State.wakeCondition_iff_of_idle hidle, hpending, State.isEnabled_congr h.enable]

theorem Unloaded.wakeCondition_iff {s u : State} {list : BitVec 8} {n : Nat} (hu : Unloaded s u list n) (k : ReturnKind)
    {fp : Word} (hfp : fp.toNat % 4 = 0) (halone : ∀ e : Nat, s.isActive e = true → e = s.ipsr.toNat) :
    (u.endException.restore k fp (u.frameAt fp)).wakeCondition = true ↔
      ∃ e ∈ exceptionNumbers, s.isPending e = true ∧ s.isEnabled e = true :=
  (hu.returned k hfp (u.endException.restore k fp (u.frameAt fp)).sleep).wakeCondition_iff halone

/-- The sleep state after a return to Thread mode with SCR.SLEEPONEXIT set. -/
theorem Unloaded.sleep_eq {s u : State} {list : BitVec 8} {n : Nat} (hu : Unloaded s u list n) {k : ReturnKind}
    (hk : k.toThread = true) (hexit : s.scb.sleepOnExit = true) (fp : Word) (f : Frame) :
    ((u.endException.restore k fp f).sleepOnExit k).sleep =
      if (u.endException.restore k fp f).wakeCondition then s.sleep else .asleep .interrupt s.scb.sleepDeep := by
  have hkept : (u.endException.restore k fp f).scb = s.scb ∧ (u.endException.restore k fp f).sleep = s.sleep := by
    rw [State.restore_eq, hu.only]
    exact ⟨rfl, rfl⟩
  obtain ⟨hscb, hsleep⟩ := hkept
  rw [State.sleepOnExit_of_toThread hk (by rwa [hscb]), apply_ite State.sleep, hsleep, State.fallAsleep, hscb]

/-- Settles O51: the return of O42, and then the sleep state by the wake-up condition of Thread mode. -/
theorem sleepOnExit : Obligations.SleepOnExit := by
  intro s i v list n fromProcess h hm hv hactive halone fp ho hmode hexit
  obtain ⟨hv, hk⟩ := excReturn_eq (toThread := true) hv fun _ => rfl
  have hc : s.returnConsistent { fromProcess, toThread := true } = true :=
    State.returnConsistent_iff.2 ⟨hactive, iff_of_true rfl halone⟩
  obtain ⟨u, hu, hx⟩ := h.exec_of_consistent hm hv hk hc rfl ho
  have halign := aligned_iff.1 (State.ordinary_iff.1 (State.ordinaryWords_succ ho).1).1
  obtain ⟨hret, -⟩ := hu.returned_sleepOnExit { fromProcess, toThread := true } halign
  have hthread : State.handlerMode _ = false := bne_eq_false_iff_eq.2 (BitVec.eq_of_toNat_eq (hret.ipsr.trans hmode))
  have hsleep := hu.sleep_eq (k := { fromProcess, toThread := true }) rfl hexit fp (u.frameAt fp)
  have hwakes := hu.wakeCondition_iff { fromProcess, toThread := true } halign halone
  exact ⟨_, hx.trans (if_pos (iff_of_true rfl hmode)), hret, hthread,
    fun hwake => hsleep.trans (if_pos (hwakes.2 hwake)),
    fun hwake => hsleep.trans (if_neg (mt hwakes.1 hwake))⟩

end Sys2Proof.Machine
end

section
/-!
SUPPORT. The reset of a running machine: between two instructions, asked for by SYSRESETREQ, or inside an instruction
(60_exceptions.md R404; 70_reset_and_hazards.md R500 to R503).
-/

namespace Sys2Proof.Machine

/-! ## What a reset leaves (R500) -/

theorem registerAt_cpuid : RegisterAt 0xE000ED00 .cpuid := ⟨rfl, rfl, rfl⟩
theorem registerAt_ccr : RegisterAt 0xE000ED14 .ccr := ⟨rfl, rfl, rfl⟩

/-- The lower half of AIRCR reads as zero, with it the bit of the data endianness (R69). -/
theorem State.loadWord_aircr (s : State) :
    ∃ v t, s.loadWord 0xE000ED0C = .ok (v, t) ∧ v.getLsbD 15 = false := by
  refine ⟨_, _, State.loadWord_register registerAt_aircr, ?_⟩
  rw [BitVec.getLsbD_append, if_pos (by decide)]
  exact BitVec.getLsbD_zero

/-- A reset with readable words at addresses 0 and 4 restarts the machine and leaves memory. -/
theorem warmReset_restarted {s : State} (h0 : s.ordinary .read 0 4 = true) (h4 : s.ordinary .read 4 4 = true)
    (lines : BitVec 32) : ∃ t, s.warmReset lines = .next t ∧ Restarted s t ∧ t.mem = s.mem := by
  refine ⟨_, warmReset_of_ordinary h0 h4 lines, ?_, rfl⟩
  constructor
  case msp => rw [← State.readWord_toNat]; exact alignWord_toNat _
  case pc => rw [← State.readWord_toNat]; exact clearBit0_toNat _
  case thumb => rw [← State.readWord_toNat]; exact getLsbD_zero_eq_decide _
  case scr => exact BitVec.eq_of_toNat_eq (State.scrValue_toNat _)
  case systCsr => exact BitVec.eq_of_toNat_eq (State.systCsrValue_toNat _)
  case ipr => exact fun n => Vector.getElem_replicate _
  case cpuid => exact State.loadWord_register registerAt_cpuid
  case ccr => exact State.loadWord_register registerAt_ccr
  case systCalib => exact State.loadWord_register registerAt_systCalib
  case endianess => exact State.loadWord_aircr _
  all_goals rfl

/-- What a reset leaves depends on the state before it by the memory map and CCR only. -/
theorem Restarted.congr {s s' t : State} (h : Restarted s' t) (hmap : s'.memMap = s.memMap)
    (hscb : s'.scb = s.scb) : Restarted s t :=
  { h with
    memMap := h.memMap.trans hmap
    ccr := by rw [← hscb]; exact h.ccr }

/-! ## A reset inside an instruction (R404, R502) -/

/-- Forgetting bytes changes memory, and draws. -/
theorem State.forget_eq (as : List Word) (s : State) :
    ∃ m i, State.forget as s = { s with mem := m, freeIndex := i } := by
  induction as generalizing s with
  | nil => exact ⟨s.mem, s.freeIndex, rfl⟩
  | cons a as ih =>
    obtain ⟨m, i, h⟩ := ih { s.afterDraw with
      mem := s.mem.writeByte a.toNat ((Config.freeWord s.freeIndex).extractLsb' 0 8) }
    exact ⟨m, i, h⟩

/-- A step without a reset records every byte that it changes, so that what a reset inside it forgets is among those. -/
theorem State.forget_stored_readByte {s u : State} {i : HostInput} (hm : s.mem.wf = true) (hs : s.stored = [])
    (h : s.proceed i = .next u) {k : Nat} (hk : ∀ a ∈ u.stored, a.toNat ≠ k) :
    (u.forget u.stored).mem.readByte k = s.mem.readByte k := by
  obtain ⟨hwf, xs, hxs, hkept⟩ := State.proceed_accounts h hm
  rw [hs, List.append_nil] at hxs
  rw [State.forget_readByte hwf k hk]
  exact hkept k (hxs ▸ hk)

/-! ## The steps that are a reset -/

theorem step_eq_warmReset {s : State} (h : s.scb.resetRequest = true ∨ s.takeInput.1.reset = .betweenInstructions) :
    step s = s.takeInput.2.warmReset s.takeInput.1.lines := by
  cases hr : s.scb.resetRequest
  · have hbetween := h.resolve_left (by rw [hr]; decide)
    simp [step, State.cycle, hr, hbetween]
  · exact step_of_resetRequest hr

theorem step_of_resetInside {s u : State} (hr : s.scb.resetRequest = false)
    (hi : s.takeInput.1.reset = .insideInstruction) (hp : s.takeInput.2.proceed s.takeInput.1 = .next u) :
    step s = (u.forget u.stored).warmReset s.takeInput.1.lines := by
  simp [step, State.cycle, hr, hi, State.resetInside, hp]

/-- Settles O9: both kinds of reset are `warmReset`, of the memory as it is or with the stored bytes forgotten. -/
theorem resetRestarts : Obligations.ResetRestarts := by
  intro s
  refine ⟨fun h h0 h4 => ?_, fun u hr hi hm hp h0 h4 => ?_⟩
  · have hmap := s.takeInput_memMap
    obtain ⟨t, ht, hrestart, hmem⟩ := warmReset_restarted (State.ordinary_of_memMap_eq hmap h0)
      (State.ordinary_of_memMap_eq hmap h4) s.takeInput.1.lines
    exact ⟨t, (step_eq_warmReset h).trans ht, hrestart.congr hmap s.takeInput_scb, hmem.trans s.takeInput_mem⟩
  · obtain ⟨m, j, hforget⟩ := State.forget_eq u.stored u
    have hmap : (u.forget u.stored).memMap = u.memMap := by rw [hforget]
    have hscb : (u.forget u.stored).scb = u.scb := by rw [hforget]
    obtain ⟨t, ht, hrestart, hmem⟩ := warmReset_restarted (State.ordinary_of_memMap_eq hmap h0)
      (State.ordinary_of_memMap_eq hmap h4) s.takeInput.1.lines
    refine ⟨t, (step_of_resetInside hr hi hp).trans ht, hrestart.congr hmap hscb, fun k hk => ?_⟩
    rw [hmem, State.forget_stored_readByte (by rwa [s.takeInput_mem]) s.takeInput_stored hp hk, s.takeInput_mem]

end Sys2Proof.Machine
end
